-- ==== Sys2Proof/Word.lean ====
section
/-! DEFINITION. The bit-vector types of what lies in memory and in an instruction: every value is unsigned and of a stated
width (00_scope.md R9, R10; field widths of 30_encoding.md R72). The types of the registers stand in Config.lean, over the
named widths of R5. -/

namespace Sys2Proof

/-- A register index, the low nibble `n`, or an ignored nibble: 4 bits (R72). -/
abbrev Nibble := BitVec 4

/-- A memory cell, an immediate `kk`, a key or a random byte: 8 bits (R28, R72, R170, R171). -/
abbrev Byte := BitVec 8

/-- The 12-bit address field `nnn` (R72). -/
abbrev Addr := BitVec 12

/-- An instruction word or a stack entry: 16 bits (R53, R70). -/
abbrev Word := BitVec 16

end Sys2Proof
end

