-- ==== Sys2Proof/Config.lean ====
section
/-! DEFINITION. What an implementation fixes: the named sizes of 00_scope.md R5, the switches of R6, the
platform parameters of R7, and the one value the spec leaves free, the random byte (R8, R170).
The reference values of the parameters stand in Sys2Proof/Machine/Reference.lean. -/

namespace Sys2Proof

/-- `MEM_SIZE`: bytes in the memory array (R5). -/
abbrev memSize : Nat := 4096
/-- `NREGS`: general registers (R5). -/
abbrev nRegs : Nat := 16
/-- `VWIDTH`: bits per general register (R5). -/
abbrev vWidth : Nat := 8
/-- `IWIDTH`: bits of the index register (R5). -/
abbrev iWidth : Nat := 16
/-- `PCWIDTH`: bits of the program counter (R5). -/
abbrev pcWidth : Nat := 16
/-- `SPWIDTH`: bits of the stack pointer (R5). -/
abbrev spWidth : Nat := 16
/-- `TWIDTH`: bits per countdown timer (R5). -/
abbrev tWidth : Nat := 8
/-- `SCREEN_W`: framebuffer columns (R5). -/
abbrev screenW : Nat := 64
/-- `SCREEN_H`: framebuffer rows (R5). -/
abbrev screenH : Nat := 32
/-- `FONT_BASE`: first byte of the font (R5). -/
abbrev fontBase : Nat := 0
/-- `FONT_GLYPH_BYTES`: bytes per glyph (R5). -/
abbrev fontGlyphBytes : Nat := 5
/-- `FONT_GLYPHS`: glyphs in the font (R5). -/
abbrev fontGlyphs : Nat := 16
/-- The font's size in bytes, 80 (R5, R7). -/
abbrev fontBytes : Nat := fontGlyphs * fontGlyphBytes
/-- `WORD_BYTES`: bytes per instruction, by which `PC` goes on (R5, R85). -/
abbrev wordBytes : Nat := 2
/-- `TICK_HZ`: timer ticks per real-time second (R5). No rule depends on it (R232, R272). -/
abbrev tickHz : Nat := 60

/-- A general register (R5, R20). -/
abbrev Reg := BitVec vWidth
/-- The index register (R5, R24). -/
abbrev IndexReg := BitVec iWidth
/-- The program counter, or an address it took: `origin`, `err_addr`, `LOAD_ADDR` (R5, R7, R22, R32). -/
abbrev Pc := BitVec pcWidth
/-- The stack pointer (R5, R25). -/
abbrev StackPtr := BitVec spWidth
/-- A countdown timer (R5, R26, R27). -/
abbrev Timer := BitVec tWidth

/-- The values of the switch `SUB_FLAG_MODE` (R6, R129). -/
inductive SubFlagMode where
  /-- `VF` = 1 exactly when there is no borrow (the default). -/
  | noBorrow
  /-- `VF` = 1 in both branches. -/
  | sourceAlwaysOne
  deriving DecidableEq, Repr

/-- The values of the switch `SHL_FLAG_MODE` (R6, R132). -/
inductive ShlFlagMode where
  /-- `VF` = the raw masked bit, 0x80 or 0 (the default). -/
  | rawMask
  /-- `VF` = the bit as 1 or 0. -/
  | normalized
  deriving DecidableEq, Repr

/-- The values of the switch `DRAW_EDGE` (R6, R193). -/
inductive DrawEdge where
  /-- The last valid coordinate is drawn, then rendering stops (the default). -/
  | inclusive
  /-- Rendering stops on reaching the last valid coordinate, which is never drawn. -/
  | exclusive
  deriving DecidableEq, Repr

/-- The configuration inputs, constant for a run (R34): the switches of R6 and the parameters of R7. -/
structure Config where
  /-- `HALT_ON_SELF_JUMP` (R6, R101). -/
  haltOnSelfJump : Bool
  /-- `SUB_FLAG_MODE` (R6, R129). -/
  subFlagMode : SubFlagMode
  /-- `SHL_FLAG_MODE` (R6, R132). -/
  shlFlagMode : ShlFlagMode
  /-- `DRAW_EDGE` (R6, R193). -/
  drawEdge : DrawEdge
  /-- `LOAD_ADDR` (R7). -/
  loadAddr : Pc
  /-- `STACK_BASE` (R7). -/
  stackBase : StackPtr
  /-- `FONT`: exactly 80 bytes (R7, R262). -/
  font : Vector Byte fontBytes
  deriving DecidableEq, Repr

/-- FREE VALUE (log 3): the byte the random source gives at the `n`-th draw. It has no body, so nothing can be
proved of it: "The core assumes nothing of the byte's value" (R234), and R170 takes it as a free input. -/
opaque Config.randomByte : Nat → Byte

end Sys2Proof
end

