-- ==== Sys2Proof/Syntax.lean ====
section
/-! DEFINITION. The instructions: one constructor per row of spec/opcode_table.json, in the table's order, with
the row's fields as arguments, each of exactly its field's width (30_encoding.md R72, R74). A field the decoder or
the instruction ignores is an argument too (named `ign` here), so that no bit of a word is lost (R76, R77, log 8). -/

namespace Sys2Proof

/-- The 34 named opcodes of R74. -/
inductive Instr where
  /-- `0_E0`: `CLS` (R190); bits 11:8 are ignored (R76). -/
  | cls (ign : Nibble)
  /-- `0_EE`: `RET` (R103); bits 11:8 are ignored (R76). -/
  | ret (ign : Nibble)
  /-- `1nnn`: `JP nnn` (R100). -/
  | jp (nnn : Addr)
  /-- `2nnn`: `CALL nnn` (R102). -/
  | call (nnn : Addr)
  /-- `3xkk`: `SE Vx, kk` (R104). -/
  | seImm (x : Nibble) (kk : Byte)
  /-- `4xkk`: `SNE Vx, kk` (R105). -/
  | sneImm (x : Nibble) (kk : Byte)
  /-- `5xy_`: `SE Vx, Vy` (R106); bits 3:0 are ignored (R77). -/
  | seReg (x y : Nibble) (ign : Nibble)
  /-- `6xkk`: `LD Vx, kk` (R122). -/
  | ldImm (x : Nibble) (kk : Byte)
  /-- `7xkk`: `ADD Vx, kk` (R123). -/
  | addImm (x : Nibble) (kk : Byte)
  /-- `8xy0`: `LD Vx, Vy` (R124). -/
  | ldReg (x y : Nibble)
  /-- `8xy1`: `OR Vx, Vy` (R125). -/
  | orReg (x y : Nibble)
  /-- `8xy2`: `AND Vx, Vy` (R126). -/
  | andReg (x y : Nibble)
  /-- `8xy3`: `XOR Vx, Vy` (R127). -/
  | xorReg (x y : Nibble)
  /-- `8xy4`: `ADD Vx, Vy` (R128). -/
  | addReg (x y : Nibble)
  /-- `8xy5`: `SUB Vx, Vy` (R129). -/
  | sub (x y : Nibble)
  /-- `8xy6`: `SHR Vx` (R130); the instruction ignores `y`. -/
  | shr (x y : Nibble)
  /-- `8xy7`: `SUBN Vx, Vy` (R131). -/
  | subn (x y : Nibble)
  /-- `8xyE`: `SHL Vx` (R132); the instruction ignores `y`. -/
  | shl (x y : Nibble)
  /-- `9xy_`: `SNE Vx, Vy` (R107); bits 3:0 are ignored (R77). -/
  | sneReg (x y : Nibble) (ign : Nibble)
  /-- `Annn`: `LD I, nnn` (R150). -/
  | ldI (nnn : Addr)
  /-- `Bnnn`: `JP V0, nnn` (R108). -/
  | jpV0 (nnn : Addr)
  /-- `Cxkk`: `RND Vx, kk` (R170). -/
  | rnd (x : Nibble) (kk : Byte)
  /-- `Dxyn`: `DRW Vx, Vy, n` (R191). -/
  | drw (x y n : Nibble)
  /-- `Ex9E`: `SKP Vx` (R210); the instruction does not read `x`. -/
  | skp (x : Nibble)
  /-- `ExA1`: `SKNP Vx` (R211); the instruction does not read `x`. -/
  | sknp (x : Nibble)
  /-- `Fx07`: `LD Vx, DT` (R172). -/
  | ldVxDt (x : Nibble)
  /-- `Fx0A`: `LD Vx, K` (R171). -/
  | ldVxK (x : Nibble)
  /-- `Fx15`: `LD DT, Vx` (R173). -/
  | ldDtVx (x : Nibble)
  /-- `Fx18`: `LD ST, Vx` (R174). -/
  | ldStVx (x : Nibble)
  /-- `Fx1E`: `ADD I, Vx` (R151). -/
  | addI (x : Nibble)
  /-- `Fx29`: `LD F, Vx` (R152). -/
  | ldF (x : Nibble)
  /-- `Fx33`: `LD B, Vx` (R153). -/
  | ldB (x : Nibble)
  /-- `Fx55`: `LD [I], Vx` (R154). -/
  | ldMemVx (x : Nibble)
  /-- `Fx65`: `LD Vx, [I]` (R155). -/
  | ldVxMem (x : Nibble)
  deriving DecidableEq, Repr

end Sys2Proof
end

