-- ==== Sys2Proof/WellFormed.lean ====
section
/-! DEFINITION. What is well formed: a raw WORD that selects a row of the opcode table (30_encoding.md R74, R81),
and a CONFIGURATION that meets the constraints of 00_scope.md R7. An `Instr` needs no check of its own: every
operand has exactly the width of its field, so an operand out of range cannot be written (R72, log 8). -/

namespace Sys2Proof

/-- The `kind` of a descriptor that is not `INVALID`: the 34 names of R74. -/
inductive Kind where
  | cls | ret | jp | call | seImm | sneImm | seReg | ldImm | addImm
  | ldReg | orReg | andReg | xorReg | addReg | sub | shr | subn | shl
  | sneReg | ldI | jpV0 | rnd | drw | skp | sknp | ldVxDt | ldVxK
  | ldDtVx | ldStVx | addI | ldF | ldB | ldMemVx | ldVxMem
  deriving DecidableEq, Repr

/-- A row of the opcode map: a word `w` selects it when `w & mask = value` (R74). -/
structure Row where
  /-- The row's mnemonic in spec/opcode_table.json. -/
  mnemonic : String
  /-- The row's 16-bit mask. -/
  mask : Word
  /-- The row's 16-bit match value. -/
  value : Word
  deriving DecidableEq, Repr

/-- The opcode map of R74. -/
def Kind.row : Kind → Row
  | .cls => ⟨"CLS", 0xF0FF#16, 0x00E0#16⟩
  | .ret => ⟨"RET", 0xF0FF#16, 0x00EE#16⟩
  | .jp => ⟨"JP_nnn", 0xF000#16, 0x1000#16⟩
  | .call => ⟨"CALL_nnn", 0xF000#16, 0x2000#16⟩
  | .seImm => ⟨"SE_Vx__kk", 0xF000#16, 0x3000#16⟩
  | .sneImm => ⟨"SNE_Vx__kk", 0xF000#16, 0x4000#16⟩
  | .seReg => ⟨"SE_Vx__Vy", 0xF000#16, 0x5000#16⟩
  | .ldImm => ⟨"LD_Vx__kk", 0xF000#16, 0x6000#16⟩
  | .addImm => ⟨"ADD_Vx__kk", 0xF000#16, 0x7000#16⟩
  | .ldReg => ⟨"LD_Vx__Vy", 0xF00F#16, 0x8000#16⟩
  | .orReg => ⟨"OR_Vx__Vy", 0xF00F#16, 0x8001#16⟩
  | .andReg => ⟨"AND_Vx__Vy", 0xF00F#16, 0x8002#16⟩
  | .xorReg => ⟨"XOR_Vx__Vy", 0xF00F#16, 0x8003#16⟩
  | .addReg => ⟨"ADD_Vx__Vy", 0xF00F#16, 0x8004#16⟩
  | .sub => ⟨"SUB_Vx__Vy", 0xF00F#16, 0x8005#16⟩
  | .shr => ⟨"SHR_Vx__Vy", 0xF00F#16, 0x8006#16⟩
  | .subn => ⟨"SUBN_Vx__Vy", 0xF00F#16, 0x8007#16⟩
  | .shl => ⟨"SHL_Vx__Vy", 0xF00F#16, 0x800E#16⟩
  | .sneReg => ⟨"SNE_Vx__Vy", 0xF000#16, 0x9000#16⟩
  | .ldI => ⟨"LD_I__nnn", 0xF000#16, 0xA000#16⟩
  | .jpV0 => ⟨"JP_V0__nnn", 0xF000#16, 0xB000#16⟩
  | .rnd => ⟨"RND_Vx__kk", 0xF000#16, 0xC000#16⟩
  | .drw => ⟨"DRW_Vx__Vy__n", 0xF000#16, 0xD000#16⟩
  | .skp => ⟨"SKP_Vx", 0xF0FF#16, 0xE09E#16⟩
  | .sknp => ⟨"SKNP_Vx", 0xF0FF#16, 0xE0A1#16⟩
  | .ldVxDt => ⟨"LD_Vx__DT", 0xF0FF#16, 0xF007#16⟩
  | .ldVxK => ⟨"LD_Vx__K", 0xF0FF#16, 0xF00A#16⟩
  | .ldDtVx => ⟨"LD_DT__Vx", 0xF0FF#16, 0xF015#16⟩
  | .ldStVx => ⟨"LD_ST__Vx", 0xF0FF#16, 0xF018#16⟩
  | .addI => ⟨"ADD_I__Vx", 0xF0FF#16, 0xF01E#16⟩
  | .ldF => ⟨"LD_F__Vx", 0xF0FF#16, 0xF029#16⟩
  | .ldB => ⟨"LD_B__Vx", 0xF0FF#16, 0xF033#16⟩
  | .ldMemVx => ⟨"LD__I___Vx", 0xF0FF#16, 0xF055#16⟩
  | .ldVxMem => ⟨"LD_Vx___I", 0xF0FF#16, 0xF065#16⟩

/-- Every kind, in the order of R74. -/
def Kind.all : List Kind :=
  [.cls, .ret, .jp, .call, .seImm, .sneImm, .seReg, .ldImm, .addImm, .ldReg, .orReg, .andReg,
   .xorReg, .addReg, .sub, .shr, .subn, .shl, .sneReg, .ldI, .jpV0, .rnd, .drw, .skp,
   .sknp, .ldVxDt, .ldVxK, .ldDtVx, .ldStVx, .addI, .ldF, .ldB, .ldMemVx, .ldVxMem]

/-- The kind of an instruction. -/
def Instr.kind : Instr → Kind
  | .cls _ => .cls
  | .ret _ => .ret
  | .jp _ => .jp
  | .call _ => .call
  | .seImm _ _ => .seImm
  | .sneImm _ _ => .sneImm
  | .seReg _ _ _ => .seReg
  | .ldImm _ _ => .ldImm
  | .addImm _ _ => .addImm
  | .ldReg _ _ => .ldReg
  | .orReg _ _ => .orReg
  | .andReg _ _ => .andReg
  | .xorReg _ _ => .xorReg
  | .addReg _ _ => .addReg
  | .sub _ _ => .sub
  | .shr _ _ => .shr
  | .subn _ _ => .subn
  | .shl _ _ => .shl
  | .sneReg _ _ _ => .sneReg
  | .ldI _ => .ldI
  | .jpV0 _ => .jpV0
  | .rnd _ _ => .rnd
  | .drw _ _ _ => .drw
  | .skp _ => .skp
  | .sknp _ => .sknp
  | .ldVxDt _ => .ldVxDt
  | .ldVxK _ => .ldVxK
  | .ldDtVx _ => .ldDtVx
  | .ldStVx _ => .ldStVx
  | .addI _ => .addI
  | .ldF _ => .ldF
  | .ldB _ => .ldB
  | .ldMemVx _ => .ldMemVx
  | .ldVxMem _ => .ldVxMem

/-- The word `w` selects the row of kind `k` (R74). -/
def Kind.selects (k : Kind) (w : Word) : Bool := w &&& k.row.mask == k.row.value

/-- A word is well formed when it selects a row of the opcode map; every other word is `INVALID` (R81). -/
def wordWellFormed (w : Word) : Bool := Kind.all.any fun k => k.selects w

/-- The constraints of R7: 80 <= `LOAD_ADDR` < `MEM_SIZE`, and 82 <= `STACK_BASE` < `LOAD_ADDR`.
That `FONT` has exactly 80 bytes is in its type. -/
def Config.wellFormed (c : Config) : Bool :=
  decide (fontBase + fontBytes ≤ c.loadAddr.toNat) && decide (c.loadAddr.toNat < memSize)
    && decide (fontBase + fontBytes + 2 ≤ c.stackBase.toNat) && decide (c.stackBase.toNat < c.loadAddr.toNat)

end Sys2Proof
end

