-- ==== Sys2Proof/Decode.lean ====
section
/-! DEFINITION. The decoder, a pure and total classifier of 16-bit words (30_encoding.md R70 to R85), and the encoder
written from the same opcode map. -/

namespace Sys2Proof

/-- `g`, bits 15:12: the group (R72). -/
def fieldG (w : Word) : Nibble := w.extractLsb' 12 4
/-- `x`, bits 11:8: the first register index, or the ignored nibble of group 0 (R72, R76). -/
def fieldX (w : Word) : Nibble := w.extractLsb' 8 4
/-- `y`, bits 7:4: the second register index (R72). -/
def fieldY (w : Word) : Nibble := w.extractLsb' 4 4
/-- `n`, bits 3:0: the low nibble (R72). -/
def fieldN (w : Word) : Nibble := w.extractLsb' 0 4
/-- `kk`, bits 7:0: the immediate byte, or the sub-opcode of groups 0, E and F (R72). -/
def fieldKk (w : Word) : Byte := w.extractLsb' 0 8
/-- `nnn`, bits 11:0: the 12-bit address (R72). -/
def fieldNnn (w : Word) : Addr := w.extractLsb' 0 12

/-- Why a word is `INVALID`: the sub-dispatched group it falls through (the four rows of R81). -/
inductive Invalid where
  /-- Group 0x0 with a low byte other than 0xE0 and 0xEE (R76); the machine-code call is one of these (R83). -/
  | group0
  /-- Group 0x8 with a low nibble in 0x8 to 0xD or 0xF (R78). -/
  | group8
  /-- Group 0xE with a low byte other than 0x9E and 0xA1 (R79). -/
  | groupE
  /-- Group 0xF with a low byte outside the nine of R80. -/
  | groupF
  deriving DecidableEq, Repr

/-- What a word decodes to: a named opcode with its operands, or `INVALID` (R75). -/
inductive Decoded where
  | named (i : Instr)
  | invalid (why : Invalid)
  deriving DecidableEq, Repr

/-- The instruction, or none where the word is `INVALID`. -/
def Decoded.instr? : Decoded → Option Instr
  | .named i => some i
  | .invalid _ => none

/-- The kind, or none for `INVALID`, the 35th class (R75, R81). -/
def Decoded.kind? (d : Decoded) : Option Kind := d.instr?.map Instr.kind

/-- Group 0x0 dispatches on the low byte; bits 11:8 are not examined (R71, R76). -/
def decodeGroup0 (w : Word) : Decoded :=
  match fieldKk w with
  | 0xE0#8 => .named (.cls (fieldX w))
  | 0xEE#8 => .named (.ret (fieldX w))
  | _ => .invalid .group0

/-- Group 0x8 dispatches on the low nibble (R71, R78). -/
def decodeGroup8 (w : Word) : Decoded :=
  match fieldN w with
  | 0x0#4 => .named (.ldReg (fieldX w) (fieldY w))
  | 0x1#4 => .named (.orReg (fieldX w) (fieldY w))
  | 0x2#4 => .named (.andReg (fieldX w) (fieldY w))
  | 0x3#4 => .named (.xorReg (fieldX w) (fieldY w))
  | 0x4#4 => .named (.addReg (fieldX w) (fieldY w))
  | 0x5#4 => .named (.sub (fieldX w) (fieldY w))
  | 0x6#4 => .named (.shr (fieldX w) (fieldY w))
  | 0x7#4 => .named (.subn (fieldX w) (fieldY w))
  | 0xE#4 => .named (.shl (fieldX w) (fieldY w))
  | _ => .invalid .group8

/-- Group 0xE dispatches on the low byte (R71, R79). -/
def decodeGroupE (w : Word) : Decoded :=
  match fieldKk w with
  | 0x9E#8 => .named (.skp (fieldX w))
  | 0xA1#8 => .named (.sknp (fieldX w))
  | _ => .invalid .groupE

/-- Group 0xF dispatches on the low byte (R71, R80). -/
def decodeGroupF (w : Word) : Decoded :=
  match fieldKk w with
  | 0x07#8 => .named (.ldVxDt (fieldX w))
  | 0x0A#8 => .named (.ldVxK (fieldX w))
  | 0x15#8 => .named (.ldDtVx (fieldX w))
  | 0x18#8 => .named (.ldStVx (fieldX w))
  | 0x1E#8 => .named (.addI (fieldX w))
  | 0x29#8 => .named (.ldF (fieldX w))
  | 0x33#8 => .named (.ldB (fieldX w))
  | 0x55#8 => .named (.ldMemVx (fieldX w))
  | 0x65#8 => .named (.ldVxMem (fieldX w))
  | _ => .invalid .groupF

/-- The two-level decoder (R71, R75): the high nibble selects one of 16 groups; groups 0x0, 0x8, 0xE and 0xF
dispatch further, every other group is one instruction for every value of its other bits (R77). The last arm is
group 0xF, the only value of the nibble not named before it. -/
def decode (w : Word) : Decoded :=
  match fieldG w with
  | 0x0#4 => decodeGroup0 w
  | 0x1#4 => .named (.jp (fieldNnn w))
  | 0x2#4 => .named (.call (fieldNnn w))
  | 0x3#4 => .named (.seImm (fieldX w) (fieldKk w))
  | 0x4#4 => .named (.sneImm (fieldX w) (fieldKk w))
  | 0x5#4 => .named (.seReg (fieldX w) (fieldY w) (fieldN w))
  | 0x6#4 => .named (.ldImm (fieldX w) (fieldKk w))
  | 0x7#4 => .named (.addImm (fieldX w) (fieldKk w))
  | 0x8#4 => decodeGroup8 w
  | 0x9#4 => .named (.sneReg (fieldX w) (fieldY w) (fieldN w))
  | 0xA#4 => .named (.ldI (fieldNnn w))
  | 0xB#4 => .named (.jpV0 (fieldNnn w))
  | 0xC#4 => .named (.rnd (fieldX w) (fieldKk w))
  | 0xD#4 => .named (.drw (fieldX w) (fieldY w) (fieldN w))
  | 0xE#4 => decodeGroupE w
  | _ => decodeGroupF w

/-- The Instruction Descriptor of R75 and R14: derived at each step, never stored (R35). -/
structure Descriptor where
  /-- The kind with its operands, or `INVALID`. -/
  decoded : Decoded
  /-- The address the word was fetched from; carried, not examined (R75). -/
  origin : Pc
  /-- The raw word. -/
  word : Word
  deriving DecidableEq, Repr

/-- The decoder's contract: a word and its origin give a descriptor (R75). -/
def describe (w : Word) (origin : Pc) : Descriptor := ⟨decode w, origin, w⟩

/-- Two bytes in fetch order make a word: the byte at the lower address is `w[15:8]` (R52). -/
def wordOfBytes (hi lo : Byte) : Word := hi ++ lo
/-- The high byte, `w[15:8]`, at the lower address (R52). -/
def hiByte (w : Word) : Byte := w.extractLsb' 8 8
/-- The low byte, `w[7:0]`, at the higher address (R52). -/
def loByte (w : Word) : Byte := w.extractLsb' 0 8

/-- Decode the two bytes of an instruction as they lie in memory: total on any bytes (R70, R75). -/
def decodeBytes (hi lo : Byte) : Decoded := decode (wordOfBytes hi lo)

/-- The bits of a table word: `nbits` of them count, every bit above is 0. The instruction is one 16-bit word (R70). -/
def tableWord (nbits w : Nat) : Word := BitVec.ofNat 16 (w % 2 ^ nbits)

/-- The instruction the decoder reads from a table word laid out in memory order, none where it is `INVALID`. -/
def decodeTableWord (nbits w : Nat) : Option Instr :=
  (decodeBytes (hiByte (tableWord nbits w)) (loByte (tableWord nbits w))).instr?

/-- Format `G_NNN` (R72). -/
def formNnn (g : Nibble) (nnn : Addr) : Word := g ++ nnn
/-- Formats `G_XKK`, `G_X_SUB` and `G_0_SUB` (R72). -/
def formXkk (g x : Nibble) (kk : Byte) : Word := g ++ x ++ kk
/-- Format `G_XYN` (R72). -/
def formXyn (g x y n : Nibble) : Word := g ++ x ++ y ++ n

/-- The word of an instruction (R72, R74). -/
def encode : Instr → Word
  | .cls ign => formXkk 0x0#4 ign 0xE0#8
  | .ret ign => formXkk 0x0#4 ign 0xEE#8
  | .jp nnn => formNnn 0x1#4 nnn
  | .call nnn => formNnn 0x2#4 nnn
  | .seImm x kk => formXkk 0x3#4 x kk
  | .sneImm x kk => formXkk 0x4#4 x kk
  | .seReg x y ign => formXyn 0x5#4 x y ign
  | .ldImm x kk => formXkk 0x6#4 x kk
  | .addImm x kk => formXkk 0x7#4 x kk
  | .ldReg x y => formXyn 0x8#4 x y 0x0#4
  | .orReg x y => formXyn 0x8#4 x y 0x1#4
  | .andReg x y => formXyn 0x8#4 x y 0x2#4
  | .xorReg x y => formXyn 0x8#4 x y 0x3#4
  | .addReg x y => formXyn 0x8#4 x y 0x4#4
  | .sub x y => formXyn 0x8#4 x y 0x5#4
  | .shr x y => formXyn 0x8#4 x y 0x6#4
  | .subn x y => formXyn 0x8#4 x y 0x7#4
  | .shl x y => formXyn 0x8#4 x y 0xE#4
  | .sneReg x y ign => formXyn 0x9#4 x y ign
  | .ldI nnn => formNnn 0xA#4 nnn
  | .jpV0 nnn => formNnn 0xB#4 nnn
  | .rnd x kk => formXkk 0xC#4 x kk
  | .drw x y n => formXyn 0xD#4 x y n
  | .skp x => formXkk 0xE#4 x 0x9E#8
  | .sknp x => formXkk 0xE#4 x 0xA1#8
  | .ldVxDt x => formXkk 0xF#4 x 0x07#8
  | .ldVxK x => formXkk 0xF#4 x 0x0A#8
  | .ldDtVx x => formXkk 0xF#4 x 0x15#8
  | .ldStVx x => formXkk 0xF#4 x 0x18#8
  | .addI x => formXkk 0xF#4 x 0x1E#8
  | .ldF x => formXkk 0xF#4 x 0x29#8
  | .ldB x => formXkk 0xF#4 x 0x33#8
  | .ldMemVx x => formXkk 0xF#4 x 0x55#8
  | .ldVxMem x => formXkk 0xF#4 x 0x65#8

end Sys2Proof
end

