-- ==== Sys2Proof/Machine/Reference.lean ====
section
/-! DEFINITION. The reference values of the parameters of 00_scope.md R7 and the default switches of R6. They stand
here, and not in Config.lean, because the spec takes them from general knowledge (log 4). -/

namespace Sys2Proof.Machine

/-- The standard hexadecimal font, the reference value of `FONT`: glyph `d` is the five bytes from `5 * d`, bit 7
leftmost (70_reset_and_hazards.md R262). -/
def referenceFont : Vector Byte fontBytes :=
  #v[
    0xF0, 0x90, 0x90, 0x90, 0xF0, 0x20, 0x60, 0x20, 0x20, 0x70,
    0xF0, 0x10, 0xF0, 0x80, 0xF0, 0xF0, 0x10, 0xF0, 0x10, 0xF0,
    0x90, 0x90, 0xF0, 0x10, 0x10, 0xF0, 0x80, 0xF0, 0x10, 0xF0,
    0xF0, 0x80, 0xF0, 0x90, 0xF0, 0xF0, 0x10, 0x20, 0x40, 0x40,
    0xF0, 0x90, 0xF0, 0x90, 0xF0, 0xF0, 0x90, 0xF0, 0x10, 0xF0,
    0xF0, 0x90, 0xF0, 0x90, 0x90, 0xE0, 0x90, 0xE0, 0x90, 0xE0,
    0xF0, 0x80, 0x80, 0x80, 0xF0, 0xE0, 0x90, 0x90, 0x90, 0xE0,
    0xF0, 0x80, 0xF0, 0x80, 0xF0, 0xF0, 0x80, 0xF0, 0x80, 0x80]

/-- The default switches of R6 with the reference parameters of R7. -/
def referenceConfig : Config where
  haltOnSelfJump := false
  subFlagMode := .noBorrow
  shlFlagMode := .rawMask
  drawEdge := .inclusive
  loadAddr := 0x0200#pcWidth
  stackBase := 0x01FE#spWidth
  font := referenceFont

end Sys2Proof.Machine
end

