-- ==== Sys2Proof/Machine/State.lean ====
section
/-! DEFINITION. The state of the core: every piece the spec names (10_state.md R20 to R34, 60_exceptions.md R240), as
plain data, with the two fields of the model's own, `schedule` and `draws`. -/

namespace Sys2Proof.Machine

/-- The engine status register (R31). -/
inductive Status where
  /-- Code 0, `RUN`: the engine may execute the instruction at `PC`. -/
  | run
  /-- Code 1, `WAIT_KEY`: `LD Vx, K` waits for a key (R171). -/
  | waitKey
  /-- Code 2, `HALT_DECODE`: the word at `err_addr` decoded as `INVALID` (R221). -/
  | haltDecode
  /-- Code 3, `HALT_SELF_JUMP`: a self-jump was reached with the switch on (R222). -/
  | haltSelfJump
  deriving DecidableEq, Repr

/-- One move of one agent. Moves are atomic and happen one at a time (R57, R226). -/
inductive Move where
  /-- The engine takes one step, if it has one (R88, R238). -/
  | engine
  /-- The timer driver ticks (R229). -/
  | tick
  /-- The host offers the key byte `k` (R233). -/
  | key (k : Byte)
  /-- The host consumes a render snapshot and clears `redraw` (R235). -/
  | render
  /-- The host resets the core with a ROM image, none where the ROM is unreadable (R260, R264). -/
  | reset (rom : Option (List Byte))
  deriving DecidableEq, Repr

/-- The memory array as the bytes that differ from what an unlisted address reads as (log 6): addresses strictly
rising, all below `MEM_SIZE`. -/
abbrev Memory := List Host.Cell

/-- The grid of boolean pixel states: row `y` holds the 64 columns of that row (R29). -/
abbrev Framebuffer := Vector (Vector Bool screenW) screenH

/-- Why `step` stops. -/
inductive Fault where
  /-- Raised by `step` alone, for every move but a reset, when `load_error` is asserted: "the engine takes no step and
  the timer driver no tick" (R264). Safe: the core never starts (log 11). -/
  | loadError
  deriving DecidableEq, Repr

/-- Why an instruction is refused. No arm of `exec` raises a refusal. -/
inductive Refusal where
  /-- For an instruction without a meaning, named by its mnemonic in the opcode table. Safe: the machine stops.
  Nobody raises it: every instruction has its meaning. -/
  | notModelled (mnemonic : String)
  deriving DecidableEq, Repr

/-- The state of the core. -/
structure State where
  /-- `V[0..15]` (R20); `V[15]` is `VF` (R21). -/
  v : Vector Reg nRegs
  /-- `PC` (R22). -/
  pc : Pc
  /-- `I` (R24). -/
  i : IndexReg
  /-- `SP` (R25). -/
  sp : StackPtr
  /-- `DT` (R26). -/
  dt : Timer
  /-- `ST` (R27). -/
  st : Timer
  /-- `mem[0..4095]` (R28). -/
  mem : Memory
  /-- `FB[0..31][0..63]` (R29). -/
  fb : Framebuffer
  /-- `redraw` (R30). -/
  redraw : Bool
  /-- `status` (R31). -/
  status : Status
  /-- `err_addr` (R32). -/
  errAddr : Pc
  /-- `err_word` (R32). -/
  errWord : Word
  /-- `wait_x` (R33). -/
  waitX : Nibble
  /-- The configuration inputs, constant for a run (R34). -/
  cfg : Config
  /-- The output `load_error` (R240, R264). -/
  loadError : Bool
  /-- The model's own: the moves still to come, next first; when none is left the engine moves. It is the free
  schedule of R8 as data (log 1). -/
  schedule : List Move
  /-- The model's own: how many random bytes have been drawn (log 3). -/
  draws : Nat
  deriving DecidableEq, Repr

/-- The machine right after reset with the default switches, the reference parameters and an empty ROM image (R260):
the font is in place because an unlisted byte reads as the reference font or 0x00 (log 6). -/
def State.reset : State where
  v := Vector.replicate nRegs 0#vWidth
  pc := referenceConfig.loadAddr
  i := 0#iWidth
  sp := referenceConfig.stackBase
  dt := 0#tWidth
  st := 0#tWidth
  mem := []
  fb := Vector.replicate screenH (Vector.replicate screenW false)
  redraw := false
  status := .run
  errAddr := 0#pcWidth
  errWord := 0x0000#16
  waitX := 0x0#4
  cfg := referenceConfig
  loadError := false
  schedule := []
  draws := 0

end Sys2Proof.Machine
end

