-- ==== Sys2Proof/Machine/Ops.lean ====
section
/-! DEFINITION. The named operations over memory, registers, the stack, the framebuffer and the program counter, and the two
halts, which are this core's whole exception mechanism (60_exceptions.md R220 to R224: no trap entry and no return). -/

namespace Sys2Proof.Machine

/-- The codes of `status` (R31). -/
def Status.code : Status → BitVec 2
  | .run => 0#2
  | .waitKey => 1#2
  | .haltDecode => 2#2
  | .haltSelfJump => 3#2

/-- The two halted statuses (R223). -/
def Status.halted : Status → Bool
  | .run => false
  | .waitKey => false
  | .haltDecode => true
  | .haltSelfJump => true

/-! ### Memory -/

/-- What an unlisted byte reads as: the contents after reset, the reference font at 0 to 79 and 0x00 elsewhere
(R28, R260, R261; log 6). -/
def unlisted (a : Nat) : Byte :=
  if h : fontBase ≤ a ∧ a < fontBase + fontBytes then referenceFont[a - fontBase] else 0x00#8

/-- The byte listed at `a`, or what an unlisted byte reads as. -/
def Memory.get : Memory → Nat → Byte
  | [], a => unlisted a
  | (k, b) :: rest, a => if k = a then b else Memory.get rest a

/-- Insert a byte at its place in the rising order. -/
def Memory.insertCell (a : Nat) (b : Byte) : Memory → Memory
  | [] => [(a, b)]
  | (k, c) :: rest => if a < k then (a, b) :: (k, c) :: rest else (k, c) :: Memory.insertCell a b rest

/-- The memory without any byte listed at `a`. -/
def Memory.erase (m : Memory) (a : Nat) : Memory := m.filter fun c => c.1 != a

/-- Set the byte at `a`, keeping the canonical form: a byte equal to what an unlisted one reads as is not listed. -/
def Memory.set (m : Memory) (a : Nat) (b : Byte) : Memory :=
  if b = unlisted a then Memory.erase m a else Memory.insertCell a b (Memory.erase m a)

/-- The canonical form: addresses strictly rising and below `MEM_SIZE`, no byte equal to what an unlisted one reads as. -/
def Memory.wf (m : Memory) : Bool :=
  decide (m.Pairwise fun c d => c.1 < d.1) && m.all fun c => decide (c.1 < memSize) && c.2 != unlisted c.1

/-- `MemRead(a, 1)`: every address is reduced mod `MEM_SIZE` at the access (R12, R50). -/
def State.readByte (s : State) (a : Nat) : Byte := Memory.get s.mem (a % memSize)

/-- `MemWrite(a, 1, b)` (R12, R50); no address is protected (R60). -/
def State.writeByte (s : State) (a : Nat) (b : Byte) : State := { s with mem := Memory.set s.mem (a % memSize) b }

/-- `MemRead(a, 2)`: big-endian, each byte address reduced separately (R12). -/
def State.readWord (s : State) (a : Nat) : Word := wordOfBytes (s.readByte a) (s.readByte (a + 1))

/-- `MemWrite(a, 2, w)`: the high byte first (R12). -/
def State.writeWord (s : State) (a : Nat) (w : Word) : State := (s.writeByte a (hiByte w)).writeByte (a + 1) (loByte w)

/-- Write the bytes `bs` from address `a` up. -/
def State.writeBytes (s : State) (a : Nat) : List Byte → State
  | [] => s
  | b :: bs => (s.writeByte a b).writeBytes (a + 1) bs

/-- The word at `PC`, as the fetch reads it (R52, R88). -/
def State.fetchWord (s : State) : Word := s.readWord s.pc.toNat

/-! ### Registers -/

/-- `V[x]` (R11, R20). -/
def State.getV (s : State) (x : Nibble) : Reg := s.v[x.toNat]'x.isLt

/-- `V[x] <- r` (R11, R20). -/
def State.setV (s : State) (x : Nibble) (r : Reg) : State := { s with v := s.v.set x.toNat r x.isLt }

/-- The index of `VF`, the flag register (R21). -/
def flagReg : Nibble := 0xF#4

/-- `VF` (R11, R21). -/
def State.vf (s : State) : Reg := s.getV flagReg

/-- The 16-bit value `I + k` before the reduction mod `MEM_SIZE`: the address of the `k`-th data byte (R156). -/
def State.indexAddr (s : State) (k : Nat) : Nat := s.i.toNat + k

/-! ### Program counter and stack -/

/-- `pc <- origin + 2` mod 2^16, the next instruction (R15, R23, R85). -/
def State.advance (s : State) : State := { s with pc := s.pc + BitVec.ofNat pcWidth wordBytes }

/-- A skip: `pc <- origin + 4` where the condition holds, else `origin + 2` (R104 to R107). -/
def State.skipIf (s : State) (c : Bool) : State :=
  { s with pc := if c then s.pc + BitVec.ofNat pcWidth (2 * wordBytes) else s.advance.pc }

/-- `pc <- target` (R11). -/
def State.jump (s : State) (target : Pc) : State := { s with pc := target }

/-- Push a 16-bit value: `SP` is decremented by 2 first, then the value is written big-endian (R53, R102). -/
def State.push (s : State) (w : Word) : State :=
  { s with sp := s.sp - 2#spWidth }.writeWord (s.sp - 2#spWidth).toNat w

/-- The 16-bit value at the top of the stack (R53, R103). -/
def State.top (s : State) : Word := s.readWord s.sp.toNat

/-- Drop the top of the stack: `SP` is incremented by 2 (R103). -/
def State.drop (s : State) : State := { s with sp := s.sp + 2#spWidth }

/-! ### Framebuffer -/

/-- `FB[y][x]` (R11, R29). -/
def Framebuffer.pixel (fb : Framebuffer) (y x : Nat) : Bool :=
  if h : y < screenH ∧ x < screenW then (fb[y]'h.1)[x]'h.2 else false

/-- `FB[y][x] <- b` (R11, R29). -/
def Framebuffer.setPixel (fb : Framebuffer) (y x : Nat) (b : Bool) : Framebuffer :=
  if h : y < screenH ∧ x < screenW then fb.set y ((fb[y]'h.1).set x b h.2) h.1 else fb

/-- Every pixel false (R190, R260). -/
def Framebuffer.blank : Framebuffer := Vector.replicate screenH (Vector.replicate screenW false)

/-! ### Halts -/

/-- `raise DecodeError(addr, word)`: the halt record and the status, nothing else; `PC` stays (R221). -/
def State.raiseDecodeError (s : State) (addr : Pc) (word : Word) : State :=
  { s with errAddr := addr, errWord := word, status := .haltDecode }

/-- `halt SelfJump`: the final framebuffer flush and the status; `PC` stays (R101, R222). -/
def State.haltSelfJump (s : State) : State := { s with redraw := true, status := .haltSelfJump }

end Sys2Proof.Machine
end

