-- ==== Sys2Proof/Machine/Operands.lean ====
section
/-! DEFINITION. The operand forms: a register selected by a 4-bit index (`State.getV`), an unsigned immediate (30_encoding.md
R73), the indexed data byte (42_memory_index.md R156), and the values instructions derive from an operand. -/

namespace Sys2Proof.Machine

/-! ### A value in another place, at that place's width of R5 -/

/-- An immediate, a data byte, a key or a random byte as a register's value (R122, R155, R170, R171). -/
def regOfByte (b : Byte) : Reg := b.setWidth vWidth

/-- A register's value as a byte of memory (R154). -/
def byteOfReg (r : Reg) : Byte := r.setWidth 8

/-- A timer's value as a register's (R172). -/
def regOfTimer (t : Timer) : Reg := t.setWidth vWidth

/-- A register's value as a timer's (R173, R174). -/
def timerOfReg (r : Reg) : Timer := r.setWidth tWidth

/-- `zext_16(nnn)` as `PC` (R10, R73). -/
def pcOfAddr (nnn : Addr) : Pc := nnn.setWidth pcWidth

/-- `zext_16(nnn)` as `I` (R10, R73). -/
def indexOfAddr (nnn : Addr) : IndexReg := nnn.setWidth iWidth

/-- `zext_16(V[x])` where it is added to `PC` (R10, R108). -/
def pcOfReg (r : Reg) : Pc := r.setWidth pcWidth

/-- `zext_16(V[x])` where it is added to `I` (R10, R151). -/
def indexOfReg (r : Reg) : IndexReg := r.setWidth iWidth

/-- An address as the 16-bit value that is pushed (R102). -/
def wordOfPc (a : Pc) : Word := a.setWidth 16

/-- The 16-bit value that is popped as `PC` (R103). -/
def pcOfWord (w : Word) : Pc := w.setWidth pcWidth

/-! ### Values derived from an operand -/

/-- The address of the glyph of a value's low nibble: `FONT_BASE + FONT_GLYPH_BYTES * (v & 0x0F)` (R152). -/
def glyphAddr (v : Reg) : IndexReg := BitVec.ofNat iWidth (fontBase + fontGlyphBytes * (v &&& 0x0F#vWidth).toNat)

/-- `v div 100`, the hundreds digit (R153). -/
def hundreds (v : Reg) : Byte := BitVec.ofNat 8 (v.toNat / 100)
/-- `(v div 10) mod 10`, the tens digit (R153). -/
def tens (v : Reg) : Byte := BitVec.ofNat 8 (v.toNat / 10 % 10)
/-- `v mod 10`, the ones digit (R153). -/
def ones (v : Reg) : Byte := BitVec.ofNat 8 (v.toNat % 10)

/-- `MemRead(I + k, 1)`, the `k`-th data byte (R156). -/
def State.dataByte (s : State) (k : Nat) : Byte := s.readByte (s.indexAddr k)

/-- Store `V[0] .. V[n-1]` at `I ..`, in rising order (R154); `I` is kept. -/
def State.storeRegs (s : State) : Nat → State
  | 0 => s
  | n + 1 => (s.storeRegs n).writeByte (s.indexAddr n) (byteOfReg (s.getV (BitVec.ofNat 4 n)))

/-- Load `V[0] .. V[n-1]` from `I ..`, in rising order (R155); `I` is kept. -/
def State.loadRegs (s : State) : Nat → State
  | 0 => s
  | n + 1 => (s.loadRegs n).setV (BitVec.ofNat 4 n) (regOfByte (s.dataByte n))

/-- `RandomByte()`: the next free byte (R170; log 3). -/
def State.randomByte (s : State) : Byte := Config.randomByte s.draws

/-- The random source moves on to its next byte, which no rule relates to the one before (R170, U4). -/
def State.drawNext (s : State) : State := { s with draws := s.draws + 1 }

end Sys2Proof.Machine
end

