-- ==== Sys2Proof/Machine/Flags.lean ====
section
/-! DEFINITION. Every flag computation (41_arith_logic.md R121, R128 to R132). The collision flag of DRW stands with the
pixel rule in Display.lean (44_display.md R192). -/

namespace Sys2Proof.Machine

/-- A condition as the flag value 1 or 0. -/
def flagOf (c : Bool) : Reg := if c then 1#vWidth else 0#vWidth

/-- The largest value of a general register, 255 (R5, R128). -/
def regMax : Nat := 2 ^ vWidth - 1

/-- The highest bit of a general register, 0x80 (R5, R132). -/
def regTopBit : Reg := BitVec.ofNat vWidth (2 ^ (vWidth - 1))

/-- The carry of an addition: 1 when the exact sum is above 255 (R128). -/
def carryFlag (a b : Reg) : Reg := flagOf (decide (regMax < a.toNat + b.toNat))

/-- No borrow: 1 when the minuend is at least the subtrahend (R129, R131). -/
def noBorrowFlag (minuend subtrahend : Reg) : Reg := flagOf (decide (subtrahend.toNat ≤ minuend.toNat))

/-- The flag of `SUB`, selected by `SUB_FLAG_MODE` (R129). -/
def subFlag (mode : SubFlagMode) (minuend subtrahend : Reg) : Reg :=
  match mode with
  | .noBorrow => noBorrowFlag minuend subtrahend
  | .sourceAlwaysOne => 1#vWidth

/-- The bit `SHR` shifts out (R130). -/
def shrFlag (a : Reg) : Reg := a &&& 1#vWidth

/-- The bit `SHL` shifts out, selected by `SHL_FLAG_MODE` (R132). -/
def shlFlag (mode : ShlFlagMode) (a : Reg) : Reg :=
  match mode with
  | .rawMask => a &&& regTopBit
  | .normalized => a >>> (vWidth - 1)

/-- Flag first, then result (R121): `VF` is written with the flag, then the operands are read again and the result is
written to `V[x]`, then `PC` advances. With `x = F` the result overwrites the flag; an operand `VF` is the new flag. -/
def State.flagThenResult (s : State) (x : Nibble) (flag : Reg) (result : State → Reg) : State :=
  ((s.setV flagReg flag).setV x (result (s.setV flagReg flag))).advance

end Sys2Proof.Machine
end

