-- ==== Sys2Proof/Machine/ArithLogic.lean ====
section
/-! DEFINITION. The meanings of 41_arith_logic.md: loads, additions, bitwise operations, subtractions and shifts on the
general registers. -/

namespace Sys2Proof.Machine

/-- R122: `LD Vx, kk`. -/
def execLdImm (x : Nibble) (kk : Byte) (s : State) : Host.Outcome State Fault Refusal :=
  .next (s.setV x (regOfByte kk)).advance

/-- R123: `ADD Vx, kk`; the carry is discarded. -/
def execAddImm (x : Nibble) (kk : Byte) (s : State) : Host.Outcome State Fault Refusal :=
  .next (s.setV x (s.getV x + regOfByte kk)).advance

/-- R124: `LD Vx, Vy`. -/
def execLdReg (x y : Nibble) (s : State) : Host.Outcome State Fault Refusal :=
  .next (s.setV x (s.getV y)).advance

/-- R125: `OR Vx, Vy`. -/
def execOrReg (x y : Nibble) (s : State) : Host.Outcome State Fault Refusal :=
  .next (s.setV x (s.getV x ||| s.getV y)).advance

/-- R126: `AND Vx, Vy`. -/
def execAndReg (x y : Nibble) (s : State) : Host.Outcome State Fault Refusal :=
  .next (s.setV x (s.getV x &&& s.getV y)).advance

/-- R127: `XOR Vx, Vy`. -/
def execXorReg (x y : Nibble) (s : State) : Host.Outcome State Fault Refusal :=
  .next (s.setV x (s.getV x ^^^ s.getV y)).advance

/-- R128: `ADD Vx, Vy` with the carry flag. -/
def execAddReg (x y : Nibble) (s : State) : Host.Outcome State Fault Refusal :=
  .next (s.flagThenResult x (carryFlag (s.getV x) (s.getV y)) fun t => t.getV x + t.getV y)

/-- R129: `SUB Vx, Vy`, its flag selected by `SUB_FLAG_MODE`. -/
def execSub (x y : Nibble) (s : State) : Host.Outcome State Fault Refusal :=
  .next (s.flagThenResult x (subFlag s.cfg.subFlagMode (s.getV x) (s.getV y)) fun t => t.getV x - t.getV y)

/-- R130: `SHR Vx`, in place. -/
def execShr (x : Nibble) (s : State) : Host.Outcome State Fault Refusal :=
  .next (s.flagThenResult x (shrFlag (s.getV x)) fun t => t.getV x >>> 1)

/-- R131: `SUBN Vx, Vy`; `SUB_FLAG_MODE` does not apply. -/
def execSubn (x y : Nibble) (s : State) : Host.Outcome State Fault Refusal :=
  .next (s.flagThenResult x (noBorrowFlag (s.getV y) (s.getV x)) fun t => t.getV y - t.getV x)

/-- R132: `SHL Vx`, in place, its flag selected by `SHL_FLAG_MODE`. -/
def execShl (x : Nibble) (s : State) : Host.Outcome State Fault Refusal :=
  .next (s.flagThenResult x (shlFlag s.cfg.shlFlagMode (s.getV x)) fun t => t.getV x <<< 1)

end Sys2Proof.Machine
end

