-- ==== Sys2Proof/Machine/ControlFlow.lean ====
section
/-! DEFINITION. The meanings of 40_control_flow.md: jumps, call and return, the four conditional skips. `s.pc` is
`origin`, the address of the executing instruction (00_scope.md R14). -/

namespace Sys2Proof.Machine

/-- R100, R101: `JP nnn`, or the self-jump halt when the switch is on and the target is the jump's own address. -/
def execJp (nnn : Addr) (s : State) : Host.Outcome State Fault Refusal :=
  .next (if s.cfg.haltOnSelfJump && pcOfAddr nnn == s.pc then s.haltSelfJump else s.jump (pcOfAddr nnn))

/-- R102: `CALL nnn` pushes the address of the next instruction and jumps. -/
def execCall (nnn : Addr) (s : State) : Host.Outcome State Fault Refusal :=
  .next ((s.push (wordOfPc s.advance.pc)).jump (pcOfAddr nnn))

/-- R103: `RET` pops `PC`; the popped value is used as it is. -/
def execRet (s : State) : Host.Outcome State Fault Refusal :=
  .next (s.drop.jump (pcOfWord s.top))

/-- R104: `SE Vx, kk`. -/
def execSeImm (x : Nibble) (kk : Byte) (s : State) : Host.Outcome State Fault Refusal :=
  .next (s.skipIf (s.getV x == regOfByte kk))

/-- R105: `SNE Vx, kk`. -/
def execSneImm (x : Nibble) (kk : Byte) (s : State) : Host.Outcome State Fault Refusal :=
  .next (s.skipIf (s.getV x != regOfByte kk))

/-- R106: `SE Vx, Vy`. -/
def execSeReg (x y : Nibble) (s : State) : Host.Outcome State Fault Refusal :=
  .next (s.skipIf (s.getV x == s.getV y))

/-- R107: `SNE Vx, Vy`. -/
def execSneReg (x y : Nibble) (s : State) : Host.Outcome State Fault Refusal :=
  .next (s.skipIf (s.getV x != s.getV y))

/-- R108: `JP V0, nnn`, the 16-bit sum kept whole; never a self-jump halt (R101). -/
def execJpV0 (nnn : Addr) (s : State) : Host.Outcome State Fault Refusal :=
  .next (s.jump (pcOfAddr nnn + pcOfReg (s.getV 0x0#4)))

end Sys2Proof.Machine
end

