-- ==== Sys2Proof/Machine/Display.lean ====
section
/-! DEFINITION. The meanings of 44_display.md: clear and sprite draw, with the pixel rule and the screen edge rule. -/

namespace Sys2Proof.Machine

/-- `InCol(xx)`, selected by `DRAW_EDGE` (R193). -/
def inCol : DrawEdge → Nat → Bool
  | .inclusive, xx => decide (xx ≤ screenW - 1)
  | .exclusive, xx => decide (xx < screenW - 1)

/-- `InRow(yy)`, selected by `DRAW_EDGE` (R193). -/
def inRow : DrawEdge → Nat → Bool
  | .inclusive, yy => decide (yy ≤ screenH - 1)
  | .exclusive, yy => decide (yy < screenH - 1)

/-- The column a draw starts at: `V[x] mod SCREEN_W` (R191). -/
def startCol (v : Reg) : Nat := v.toNat % screenW

/-- The row a draw starts at: `V[y] mod SCREEN_H` (R191). -/
def startRow (v : Reg) : Nat := v.toNat % screenH

/-- The bit of a sprite byte at column `c` of the sprite: bit 7 is the leftmost pixel (R191, log 19). -/
def spriteBit (b : Byte) (c : Nat) : Bool := b.getLsbD (7 - c)

/-- `PixelXor(yy, xx)`: a set pixel is cleared and `VF` becomes 1, a clear one is set (R192). -/
def State.pixelXor (s : State) (yy xx : Nat) : State :=
  if Framebuffer.pixel s.fb yy xx
  then { s with fb := Framebuffer.setPixel s.fb yy xx false }.setV flagReg 1#vWidth
  else { s with fb := Framebuffer.setPixel s.fb yy xx true }

/-- The columns `c`, `c + 1`, … of one sprite row, `left` of them still to do, ending at the right edge (R191). -/
def State.drawCols (s : State) (b : Byte) (yy x0 c : Nat) : (left : Nat) → State
  | 0 => s
  | left + 1 =>
    if inCol s.cfg.drawEdge (x0 + c)
    then (if spriteBit b c then s.pixelXor yy (x0 + c) else s).drawCols b yy x0 (c + 1) left
    else s

/-- The rows `r`, `r + 1`, … of a sprite, `left` of them still to do, ending at the bottom edge; a row cut off is not
read (R191). -/
def State.drawRows (s : State) (x0 y0 r : Nat) : (left : Nat) → State
  | 0 => s
  | left + 1 =>
    if inRow s.cfg.drawEdge (y0 + r)
    then (s.drawCols (s.dataByte r) (y0 + r) x0 0 8).drawRows x0 y0 (r + 1) left
    else s

/-- R190: `CLS`. -/
def execCls (s : State) : Host.Outcome State Fault Refusal :=
  .next { s with fb := Framebuffer.blank, redraw := true }.advance

/-- R191: `DRW Vx, Vy, n`: the coordinates are read, then `VF` is cleared, then the sprite is drawn. -/
def execDrw (x y n : Nibble) (s : State) : Host.Outcome State Fault Refusal :=
  .next { (s.setV flagReg 0#vWidth).drawRows (startCol (s.getV x)) (startRow (s.getV y)) 0 n.toNat with
    redraw := true }.advance

end Sys2Proof.Machine
end

