-- ==== Sys2Proof/Machine/IoTimers.lean ====
section
/-! DEFINITION. The meanings of 43_io_timers.md: the random byte, the issue of the blocking key read, the timers. The key
read's completion is a move of the host, in Agents.lean (R171 step 2, R233). -/

namespace Sys2Proof.Machine

/-- R170: `RND Vx, kk`: a free byte ANDed with `kk`. -/
def execRnd (x : Nibble) (kk : Byte) (s : State) : Host.Outcome State Fault Refusal :=
  .next (s.drawNext.setV x (regOfByte (s.randomByte &&& kk))).advance

/-- R171 step 1: `LD Vx, K` enters `WAIT_KEY`; `PC` stays `origin`. -/
def execLdVxK (x : Nibble) (s : State) : Host.Outcome State Fault Refusal :=
  .next { s with waitX := x, status := .waitKey }

/-- R172: `LD Vx, DT`. -/
def execLdVxDt (x : Nibble) (s : State) : Host.Outcome State Fault Refusal :=
  .next (s.setV x (regOfTimer s.dt)).advance

/-- R173: `LD DT, Vx`. -/
def execLdDtVx (x : Nibble) (s : State) : Host.Outcome State Fault Refusal :=
  .next { s with dt := timerOfReg (s.getV x) }.advance

/-- R174: `LD ST, Vx`. -/
def execLdStVx (x : Nibble) (s : State) : Host.Outcome State Fault Refusal :=
  .next { s with st := timerOfReg (s.getV x) }.advance

end Sys2Proof.Machine
end

