-- ==== Sys2Proof/Machine/KeySkip.lean ====
section
/-! DEFINITION. The meanings of 45_key_skip.md: the two key-state skips, which the spec defines as no-ops. -/

namespace Sys2Proof.Machine

/-- R210: `SKP Vx` never skips and reads nothing. -/
def execSkp (s : State) : Host.Outcome State Fault Refusal :=
  .next s.advance

/-- R211: `SKNP Vx` never skips and reads nothing. -/
def execSknp (s : State) : Host.Outcome State Fault Refusal :=
  .next s.advance

end Sys2Proof.Machine
end

