-- ==== Sys2Proof/Machine/MemoryIndex.lean ====
section
/-! DEFINITION. The meanings of 42_memory_index.md: the index register, the glyph address, the decimal digits, the bulk
store and load. -/

namespace Sys2Proof.Machine

/-- R150: `LD I, nnn`. -/
def execLdI (nnn : Addr) (s : State) : Host.Outcome State Fault Refusal :=
  .next { s with i := indexOfAddr nnn }.advance

/-- R151: `ADD I, Vx`, the full 16-bit sum; no flag. -/
def execAddI (x : Nibble) (s : State) : Host.Outcome State Fault Refusal :=
  .next { s with i := s.i + indexOfReg (s.getV x) }.advance

/-- R152: `LD F, Vx`. -/
def execLdF (x : Nibble) (s : State) : Host.Outcome State Fault Refusal :=
  .next { s with i := glyphAddr (s.getV x) }.advance

/-- R153: `LD B, Vx`; the value is read once, before any write. -/
def execLdB (x : Nibble) (s : State) : Host.Outcome State Fault Refusal :=
  .next (s.writeBytes (s.indexAddr 0) [hundreds (s.getV x), tens (s.getV x), ones (s.getV x)]).advance

/-- R154: `LD [I], Vx` stores `V0 .. Vx`. -/
def execLdMemVx (x : Nibble) (s : State) : Host.Outcome State Fault Refusal :=
  .next (s.storeRegs (x.toNat + 1)).advance

/-- R155: `LD Vx, [I]` loads `V0 .. Vx`. -/
def execLdVxMem (x : Nibble) (s : State) : Host.Outcome State Fault Refusal :=
  .next (s.loadRegs (x.toNat + 1)).advance

end Sys2Proof.Machine
end

