-- ==== Sys2Proof/Machine/Engine.lean ====
section
/-! DEFINITION. The engine's fetch-decode-execute step (30_encoding.md R88). -/

namespace Sys2Proof.Machine

/-- Execute a descriptor: a named kind by its meaning, `INVALID` by the decode error (R82, R88). -/
def executeDescriptor (d : Descriptor) (s : State) : Host.Outcome State Fault Refusal :=
  match d.decoded with
  | .named i => exec i s
  | .invalid _ => .next (s.raiseDecodeError d.origin d.word)

/-- One step of the engine (R88). In `WAIT_KEY` it has no step without a key, and in the halted statuses none at all
(R223): the machine is left as it is, as the step of R238 leaves it (log 2). -/
def engineStep (s : State) : Host.Outcome State Fault Refusal :=
  match s.status with
  | .run => executeDescriptor (describe s.fetchWord s.pc) s
  | .waitKey => .next s
  | .haltDecode => .next s
  | .haltSelfJump => .next s

end Sys2Proof.Machine
end

