-- ==== Sys2Proof/Machine/Agents.lean ====
section
/-! DEFINITION. The moves of the timer driver and of the host, the loader's reset, and the core's output ports
(60_exceptions.md R228 to R240, 70_reset_and_hazards.md R260 to R264). -/

namespace Sys2Proof.Machine

/-- A timer one tick on: toward zero, never below (R229). -/
def countDown (t : Timer) : Timer := if 0 < t.toNat then t - 1#tWidth else t

/-- One tick of the timer driver, in every engine status (R229, R231). -/
def State.tick (s : State) : State := { s with dt := countDown s.dt, st := countDown s.st, redraw := true }

/-- The host offers the key byte `k`: in `WAIT_KEY` it completes `LD Vx, K` (R171 step 2), otherwise it is not taken
(R233). -/
def State.offerKey (s : State) (k : Byte) : State :=
  match s.status with
  | .waitKey => { s.setV s.waitX (regOfByte k) with status := .run }.advance
  | .run => s
  | .haltDecode => s
  | .haltSelfJump => s

/-! ### Output ports -/

/-- `sound_active = (ST != 0)` (R236). -/
def State.soundActive (s : State) : Bool := s.st != 0#tWidth

/-- `key_req`: asserted while `status = WAIT_KEY` (R233, R240). -/
def State.keyReq (s : State) : Bool := s.status == .waitKey

/-- What the renderer reads in one atomic action (R235). -/
structure Snapshot where
  /-- All of `FB`. -/
  fb : Framebuffer
  /-- `sound_active`. -/
  soundActive : Bool
  deriving DecidableEq, Repr

/-- The render snapshot: it changes nothing (R235). -/
def State.snapshot (s : State) : Snapshot := ⟨s.fb, s.soundActive⟩

/-- Consuming the snapshot clears `redraw` in the same action, the only action that does (R235). -/
def State.consumeRender (s : State) : Snapshot × State := (s.snapshot, { s with redraw := false })

/-- What the debug accessor reads (R237). -/
structure DebugView where
  v : Vector Reg nRegs
  i : IndexReg
  pc : Pc
  sp : StackPtr
  dt : Timer
  st : Timer
  /-- The bytes of the range asked for. -/
  mem : List Byte
  status : Status
  errAddr : Pc
  errWord : Word
  deriving DecidableEq, Repr

/-- The read-only accessor, with the `len` bytes of `mem` from `lo` (R237); a read changes nothing. -/
def State.debugView (s : State) (lo len : Nat) : DebugView :=
  ⟨s.v, s.i, s.pc, s.sp, s.dt, s.st, (List.range len).map fun k => s.readByte (lo + k), s.status, s.errAddr, s.errWord⟩

/-! ### Reset -/

/-- Steps 1 and 2 of R260 under the configuration `c`: every register and flag at its reset value. Step 2 clears every
byte; those of the font, which an unlisted byte shows, are all written by step 3 (log 6). -/
def State.cleared (c : Config) : State :=
  { State.reset with pc := c.loadAddr, sp := c.stackBase, cfg := c }

/-- Step 3 of R260: the loader writes the font, glyph `d` at `5 * d`, row 0 first (R261). -/
def State.loadFont (s : State) : State := s.writeBytes fontBase s.cfg.font.toList

/-- Step 4 of R260: the ROM image goes to `LOAD_ADDR` on (R263); an unreadable image, or one longer than
`MEM_SIZE - LOAD_ADDR` bytes, is a load error (R264). -/
def State.loadRom (s : State) (rom : Option (List Byte)) : State :=
  match rom with
  | none => { s with loadError := true }
  | some image =>
    if image.length ≤ memSize - s.cfg.loadAddr.toNat
    then s.writeBytes s.cfg.loadAddr.toNat image
    else { s with loadError := true }

/-- The reset sequence of R260 under the configuration `c`. -/
def State.boot (c : Config) (rom : Option (List Byte)) : State := (State.cleared c).loadFont.loadRom rom

/-- The host resets the running machine: the configuration inputs are static, and what the environment will do
(`schedule`, `draws`) is not the core's to reset (log 12). -/
def State.reboot (s : State) (rom : Option (List Byte)) : State :=
  { State.boot s.cfg rom with schedule := s.schedule, draws := s.draws }

/-! ### Moves -/

/-- One move, with `s.schedule` what is left after it. A reset is always possible; after a load error nothing else is
(R264, log 11). -/
def moveStep (m : Move) (s : State) : Host.Outcome State Fault Refusal :=
  match m, s.loadError with
  | .reset rom, _ => .next (s.reboot rom)
  | .engine, true => .fault .loadError
  | .tick, true => .fault .loadError
  | .key _, true => .fault .loadError
  | .render, true => .fault .loadError
  | .engine, false => engineStep s
  | .tick, false => .next s.tick
  | .key k, false => .next (s.offerKey k)
  | .render, false => .next s.consumeRender.2

/-- The move that comes next: the schedule's first, the engine's when the schedule is empty (log 1). -/
def State.nextMove (s : State) : Move :=
  match s.schedule with
  | [] => .engine
  | m :: _ => m

/-- The state with its next move taken off the schedule. -/
def State.popMove (s : State) : State := { s with schedule := s.schedule.tail }

/-- Place a table word where the engine fetches next, with the engine free to run it at once (log 20). -/
def State.placeWord (s : State) (w : Word) : State :=
  { s with status := .run, loadError := false, schedule := [] }.writeWord s.pc.toNat w

end Sys2Proof.Machine
end

