-- ==== Sys2Proof/Machine/Step.lean ====
section
/-! DEFINITION. The step: one atomic move of one agent (20_memory.md R57, 60_exceptions.md R226). -/

namespace Sys2Proof.Machine

/-- One step of the machine: the next move of the schedule, the engine's where none is left (log 1). -/
def step (s : State) : Host.Outcome State Fault Refusal :=
  moveStep s.nextMove s.popMove

/-- `s` with a table word of `nbits` bits placed where the next step fetches, and ready to run it (log 20). -/
def State.withFetchWord (s : State) (nbits w : Nat) : State :=
  s.placeWord (tableWord nbits w)

end Sys2Proof.Machine
end

