-- ==== Sys2Proof/Machine/Control.lean ====
section
/-! DEFINITION. Step control, the host's side of the debug surface (60_exceptions.md R238): the core holds no breakpoint
state (R242), so these are functions beside the step (log 15). -/

namespace Sys2Proof.Machine

/-- The one step the engine can take, with the key the host offers, if it offers one: in `WAIT_KEY` a key completes
`LD Vx, K` (R88, R171); in every other status a key is not taken (R233). -/
def State.stepMove (s : State) (key : Option Byte) : Move :=
  match s.status, key with
  | .waitKey, some k => .key k
  | .waitKey, none => .engine
  | .run, _ => .engine
  | .haltDecode, _ => .engine
  | .haltSelfJump, _ => .engine

/-- `step` of R238: the engine takes at most one step, none if it is halted, or if it waits and no key comes; `halted` is
true exactly when the status is then a halt. -/
def stepControl (key : Option Byte) (s : State) : Host.Outcome (State × Bool) Fault Refusal :=
  match moveStep (s.stepMove key) s with
  | .next t => .next (t, t.status.halted)
  | .fault f => .fault f
  | .refused r => .refused r

/-- The next move of the schedule is a step of the engine: its own move, or the key that completes a wait (R88, R171). -/
def State.stepIsNext (s : State) : Bool :=
  match s.nextMove with
  | .engine => true
  | .key _ => s.keyReq
  | .tick => false
  | .render => false
  | .reset _ => false

/-- `run(bps)` of R238, for at most `fuel` moves of the schedule: it stops after a step of the engine that leaves it halted,
or before one with `PC` in the breakpoint set. The other moves go on as the schedule has them. -/
def runControl (bps : List Pc) : Nat → State → Host.Outcome State Fault Refusal
  | 0, s => .next s
  | fuel + 1, s =>
    if s.stepIsNext && bps.contains s.pc then .next s
    else match step s with
      | .next t => if s.stepIsNext && t.status.halted then .next t else runControl bps fuel t
      | .fault f => .fault f
      | .refused r => .refused r

end Sys2Proof.Machine
end

