-- ==== Sys2Proof/Safety.lean ====
section
/-! DEFINITION. The terms claims use: the invariant of the machine, the frame of an instruction, and which instructions
the spec lets write which piece of state. -/

namespace Sys2Proof.Machine

/-- What each engine status says of the rest of the state: the halt record is zero unless the word at `PC` is the
`INVALID` one it records (R32, R221), a waiting engine stands at its `LD Vx, K` (R33, R171), and a self-jump halt stands
at a jump to itself with the switch on (R101, R222). -/
def State.statusOk (s : State) : Bool :=
  match s.status with
  | .run => s.errAddr == 0#pcWidth && s.errWord == 0#16
  | .waitKey => s.errAddr == 0#pcWidth && s.errWord == 0#16 && decode s.fetchWord == .named (.ldVxK s.waitX)
  | .haltDecode => s.errAddr == s.pc && s.errWord == s.fetchWord && (decode s.errWord).instr?.isNone
  | .haltSelfJump => s.errAddr == 0#pcWidth && s.errWord == 0#16 && s.cfg.haltOnSelfJump
      && decode s.fetchWord == .named (.jp (s.pc.setWidth 12)) && pcOfAddr (s.pc.setWidth 12) == s.pc

/-- The invariant of the machine: memory in its canonical form, and the status true to the rest of the state. -/
def State.Inv (s : State) : Prop := Memory.wf s.mem = true ∧ s.statusOk = true

/-- The pieces of state a frame speaks of, besides the registers `V`, `PC` and the bytes of memory. -/
inductive Field where
  | i | sp | dt | st | fb | redraw | status | errAddr | errWord | waitX | cfg | loadError | schedule | draws
  deriving DecidableEq, Repr

/-- The field has the same value in both states. -/
def Field.same : Field → State → State → Prop
  | .i, s, t => t.i = s.i
  | .sp, s, t => t.sp = s.sp
  | .dt, s, t => t.dt = s.dt
  | .st, s, t => t.st = s.st
  | .fb, s, t => t.fb = s.fb
  | .redraw, s, t => t.redraw = s.redraw
  | .status, s, t => t.status = s.status
  | .errAddr, s, t => t.errAddr = s.errAddr
  | .errWord, s, t => t.errWord = s.errWord
  | .waitX, s, t => t.waitX = s.waitX
  | .cfg, s, t => t.cfg = s.cfg
  | .loadError, s, t => t.loadError = s.loadError
  | .schedule, s, t => t.schedule = s.schedule
  | .draws, s, t => t.draws = s.draws

/-- From `s` to `t` nothing changed but the registers `regs`, the fields `fields`, the bytes at the addresses `stored`
(each taken mod `MEM_SIZE`), and `PC`. -/
def Frame (regs : List Nibble) (fields : List Field) (stored : List Nat) (s t : State) : Prop :=
  (∀ r, r ∉ regs → t.getV r = s.getV r) ∧
  (∀ f, f ∉ fields → f.same s t) ∧
  (∀ a, (∀ b ∈ stored, a % memSize ≠ b % memSize) → t.readByte a = s.readByte a)

/-- `n` steps in a row, stopping at the first fault or refusal. -/
def steps : Nat → State → Host.Outcome State Fault Refusal
  | 0, s => .next s
  | n + 1, s =>
    match step s with
    | .next t => steps n t
    | .fault f => .fault f
    | .refused r => .refused r

/-- `origin + 2`, the address of the next instruction (R14). -/
def State.nextPc (s : State) : Pc := s.pc + 2#pcWidth

/-- The value of `PC` after an instruction: the table of R23. -/
def pcAfter (i : Instr) (s : State) : Pc :=
  match i with
  | .jp nnn => if s.cfg.haltOnSelfJump = true ∧ pcOfAddr nnn = s.pc then s.pc else pcOfAddr nnn
  | .call nnn => pcOfAddr nnn
  | .ret _ => pcOfWord s.top
  | .seImm x kk => if s.getV x = regOfByte kk then s.pc + 4#pcWidth else s.nextPc
  | .sneImm x kk => if s.getV x ≠ regOfByte kk then s.pc + 4#pcWidth else s.nextPc
  | .seReg x y _ => if s.getV x = s.getV y then s.pc + 4#pcWidth else s.nextPc
  | .sneReg x y _ => if s.getV x ≠ s.getV y then s.pc + 4#pcWidth else s.nextPc
  | .jpV0 nnn => pcOfAddr nnn + pcOfReg (s.getV 0x0#4)
  | .ldVxK _ => s.pc
  | .cls _ | .ldImm _ _ | .addImm _ _ | .ldReg _ _ | .orReg _ _ | .andReg _ _ | .xorReg _ _ | .addReg _ _ | .sub _ _
  | .shr _ _ | .subn _ _ | .shl _ _ | .ldI _ | .rnd _ _ | .drw _ _ _ | .skp _ | .sknp _ | .ldVxDt _ | .ldDtVx _
  | .ldStVx _ | .addI _ | .ldF _ | .ldB _ | .ldMemVx _ | .ldVxMem _ => s.nextPc

/-- The instructions that write `VF` as a side effect: the complete list of R21. -/
def flagKinds : List Kind := [.addReg, .sub, .shr, .subn, .shl, .drw]

/-- The general registers an instruction names as its destination (41_arith_logic.md, 42_memory_index.md R155,
43_io_timers.md). `LD Vx, K` writes its register when the key arrives, not when it is issued (R171). -/
def destRegs (i : Instr) : List Nibble :=
  match i with
  | .ldImm x _ | .addImm x _ | .ldReg x _ | .orReg x _ | .andReg x _ | .xorReg x _ | .addReg x _ | .sub x _ | .shr x _
  | .subn x _ | .shl x _ | .rnd x _ | .ldVxDt x => [x]
  | .ldVxMem x => (List.range (x.toNat + 1)).map (BitVec.ofNat 4)
  | .cls _ | .ret _ | .jp _ | .call _ | .seImm _ _ | .sneImm _ _ | .seReg _ _ _ | .sneReg _ _ _ | .ldI _ | .jpV0 _
  | .drw _ _ _ | .skp _ | .sknp _ | .ldVxK _ | .ldDtVx _ | .ldStVx _ | .addI _ | .ldF _ | .ldB _ | .ldMemVx _ => []

/-- A sprite of `n` rows at `I`, started by the coordinates `vx`, `vy`, has a 1 bit at column `x`, row `y` of the
screen, on the drawn side of the edge (R191, R193). -/
def drawsAt (s : State) (vx vy : Reg) (n : Nibble) (y x : Nat) : Bool :=
  decide (startRow vy ≤ y) && decide (y < startRow vy + n.toNat) && inRow s.cfg.drawEdge y &&
  decide (startCol vx ≤ x) && decide (x < startCol vx + 8) && inCol s.cfg.drawEdge x &&
  spriteBit (s.dataByte (y - startRow vy)) (x - startCol vx)

end Sys2Proof.Machine
end

