-- ==== Sys2Proof/Certificates/Slice0/Obligations.lean ====
section
/-! DEFINITION. The statements about the machine, each from the rules of spec/ it names. A clause that rests on a choice the
spec marks as its own ([decision: D<n>]) or on a choice of this model (log <n>) is named as such; such a statement is
'derived' in OBLIGATIONS.json. -/

open Sys2Proof Sys2Proof.Machine

/-! ### Encoding -/

/-- O1. Decoding the word of an instruction gives that instruction, every operand and ignored field included (R72, R74;
that the ignored fields are kept as operands is the model's, log 8). -/
def Obligations.DecodeOfEncode : Prop := ∀ i : Instr, decode (encode i) = .named i

/-- O2. A word that decodes is the word of the instruction it decodes to: no bit of it is lost (R72, R75; that
the bits the dispatch ignores are kept as operands, and so not lost either, is the model's choice, log 8; which bits it
ignores is the spec's decision D11). -/
def Obligations.EncodeOfDecode : Prop := ∀ (w : Word) (i : Instr), decode w = .named i → encode i = w

/-- O3. A word selects the row of a kind exactly when it decodes to that kind, so no two rows overlap (R74; the numeric
values are the spec's decision D34, the ignored bits D11). -/
def Obligations.DecodeFollowsOpcodeMap : Prop :=
  ∀ (w : Word) (k : Kind), k.selects w = true ↔ (decode w).kind? = some k

/-- O4. The words that are `INVALID` are those of the four conditions of R81 (its word counts are not stated here; the
numeric values are the spec's decision D34, the ignored bits of group 0 are D11). -/
def Obligations.InvalidWords : Prop :=
  ∀ w : Word, (decode w).kind? = none ↔
    (fieldG w = 0x0#4 ∧ fieldKk w ∉ [0xE0#8, 0xEE#8]) ∨
    (fieldG w = 0x8#4 ∧ fieldN w ∈ [0x8#4, 0x9#4, 0xA#4, 0xB#4, 0xC#4, 0xD#4, 0xF#4]) ∨
    (fieldG w = 0xE#4 ∧ fieldKk w ∉ [0x9E#8, 0xA1#8]) ∨
    (fieldG w = 0xF#4 ∧ fieldKk w ∉ [0x07#8, 0x0A#8, 0x15#8, 0x18#8, 0x1E#8, 0x29#8, 0x33#8, 0x55#8, 0x65#8])

/-- O5. A few words of the test vectors decode to what they stand for (95_test_vectors.md X3, X4, X9, X14, X18, X21, which
give the class alone; the operands are read off by R72). That 01E0, 0FEE and 5121 are `CLS`, `RET` and `SE Vx, Vy` is the
spec's decision D11; that their ignored nibbles 1, F and 1 stand as operands is the model's choice, log 8. -/
def Obligations.VectorWordsDecode : Prop :=
  decode 0x01E0#16 = .named (.cls 0x1#4) ∧ decode 0x0FEE#16 = .named (.ret 0xF#4) ∧
  decode 0x5121#16 = .named (.seReg 0x1#4 0x2#4 0x1#4) ∧ decode 0x8ABE#16 = .named (.shl 0xA#4 0xB#4) ∧
  decode 0xF00A#16 = .named (.ldVxK 0x0#4) ∧ decode 0xD120#16 = .named (.drw 0x1#4 0x2#4 0x0#4)

/-! ### The step -/

/-- O6. A step of a running engine runs the decoded instruction, with the engine's move taken off the schedule (R88;
that a move comes off the schedule is the model's, log 1). -/
def Obligations.StepRunsDecodedInstruction : Prop :=
  ∀ (s : State) (i : Instr), s.loadError = false → s.nextMove = .engine → s.status = .run →
    decode s.fetchWord = .named i → step s = exec i s.popMove

/-- O7. The fetch is big-endian, each byte address reduced separately; at the last byte of memory the second byte is
`mem[0]` (R52). -/
def Obligations.FetchIsBigEndian : Prop :=
  ∀ s : State,
    s.fetchWord.toNat = (Memory.get s.mem (s.pc.toNat % 4096)).toNat * 256
      + (Memory.get s.mem ((s.pc.toNat + 1) % 4096)).toNat ∧
    (s.pc.toNat % 4096 = 4095 →
      s.fetchWord.toNat = (Memory.get s.mem 4095).toNat * 256 + (Memory.get s.mem 0).toNat)

/-- O8. An `INVALID` word halts the engine with the halt record, and changes nothing else (R82, R221; the halt
record is the spec's decision D24, that nothing else changes D25; the schedule is the model's, log 1). -/
def Obligations.InvalidWordHalts : Prop :=
  ∀ s : State, s.loadError = false → s.nextMove = .engine → s.status = .run → (decode s.fetchWord).kind? = none →
    ∃ t, step s = .next t ∧ t.status = .haltDecode ∧ t.errAddr = s.pc ∧ t.errWord = s.fetchWord ∧ t.pc = s.pc ∧
      t.schedule = s.schedule.tail ∧ Frame [] [.status, .errAddr, .errWord, .schedule] [] s t

/-- O9. Without a load error every step goes on to a next state: no instruction faults or is refused (R224: "every
instruction either fully applies its effects or the engine stops"; that a machine without a step is left as it is: log 2). -/
def Obligations.StepGoesOn : Prop := ∀ s : State, s.loadError = false → ∃ t, step s = .next t

/-- O10. A halted engine stays halted in every step but a reset: only the timers, `redraw` and the schedule change (R223
with its decisions D23 and D24; R231; that a halted engine's move leaves the machine as it is: log 2; the schedule: log 1). -/
def Obligations.HaltIsFinal : Prop :=
  ∀ s t : State, s.status.halted = true → (∀ rom, s.nextMove ≠ .reset rom) → step s = .next t →
    t.status = s.status ∧ t.pc = s.pc ∧ t.v = s.v ∧ Frame [] [.dt, .st, .redraw, .schedule] [] s t

/-- O11. A halted engine stays halted through any run whose schedule holds no reset (R223 with its decisions D23,
D24; the schedule: log 1; a halted engine's move: log 2). -/
def Obligations.HaltedRunStaysHalted : Prop :=
  ∀ (n : Nat) (s t : State), s.status.halted = true → (∀ rom, Move.reset rom ∉ s.schedule) →
    steps n s = .next t →
    t.status = s.status ∧ t.pc = s.pc ∧ t.v = s.v ∧ t.mem = s.mem ∧ t.fb = s.fb ∧ t.errAddr = s.errAddr ∧
      t.errWord = s.errWord

/-- O12. After a load error every move but a reset is the fault `loadError`, and nothing else faults (R264 with its decisions
D29 and D37; that the stop is a fault of the model is log 11). -/
def Obligations.LoadErrorNeverStarts : Prop :=
  ∀ (s : State) (f : Fault), step s = .fault f ↔
    (s.loadError = true ∧ (∀ rom, s.nextMove ≠ .reset rom) ∧ f = .loadError)

/-! ### Invariants -/

/-- O13. Every step keeps the invariant: memory in its canonical form, and the engine status true to the rest of the state
(R32, R33, R101, R221, with the spec's decisions D10, D22, D24 and D25; the canonical form is the model's, log 6). -/
def Obligations.StepKeepsInvariant : Prop := ∀ s t : State, s.Inv → step s = .next t → t.Inv

/-- O14. The reset state has the invariant (R260; its memory clause is the model's canonical form, log 6; the zero halt record
is the spec's decision D24; the parameters and the other zeros of the reset state are logs 4 and 5). -/
def Obligations.ResetHasInvariant : Prop := State.reset.Inv

/-- O15. A core booted under any configuration, with any image, has the invariant (R260 to R264 for what is
loaded; the memory clause is the model's canonical form, log 6; the zero halt record is the spec's decision D24). -/
def Obligations.BootHasInvariant : Prop := ∀ (c : Config) (rom : Option (List Byte)), (State.boot c rom).Inv

/-- O16. No move changes the configuration inputs: they are constant for a run (R34; through a reset too: log 12). -/
def Obligations.ConfigurationIsConstant : Prop := ∀ s t : State, step s = .next t → t.cfg = s.cfg

/-! ### Control flow -/

/-- O17. `JP nnn`: the jump, or with the switch on and the target its own address the self-jump halt with the final flush
(R100, R101, R222; that only this jump halts is the spec's decision D10). -/
def Obligations.JumpOrSelfJumpHalt : Prop :=
  ∀ (nnn : Addr) (s : State),
    (¬(s.cfg.haltOnSelfJump = true ∧ nnn.toNat = s.pc.toNat) →
      ∃ t, exec (.jp nnn) s = .next t ∧ t.pc.toNat = nnn.toNat ∧ Frame [] [] [] s t) ∧
    (s.cfg.haltOnSelfJump = true → nnn.toNat = s.pc.toNat →
      ∃ t, exec (.jp nnn) s = .next t ∧ t.status = .haltSelfJump ∧ t.redraw = true ∧ t.pc = s.pc ∧
        Frame [] [.status, .redraw] [] s t)

/-- O18. `CALL nnn` decrements `SP` by 2, writes the address of the next instruction there big-endian, and jumps (R102,
R53; the pushed value is the spec's decision D9). -/
def Obligations.CallPushesAndJumps : Prop :=
  ∀ (nnn : Addr) (s : State), ∃ t, exec (.call nnn) s = .next t ∧ t.sp = s.sp - 2#16 ∧
    (t.readByte (s.sp - 2#16).toNat).toNat * 256 + (t.readByte ((s.sp - 2#16).toNat + 1)).toNat
      = (s.pc.toNat + 2) % 65536 ∧
    t.pc.toNat = nnn.toNat ∧
    Frame [] [.sp] [(s.sp - 2#16).toNat, (s.sp - 2#16).toNat + 1] s t

/-- O19. `RET` reads the two bytes at `SP`, the high one first, into `PC` and increments `SP` by 2 (R103, R53; with no check
and no adjustment: the spec's decisions D8, D9; whatever the ignored nibble: D11, kept as an operand: log 8). -/
def Obligations.ReturnPops : Prop :=
  ∀ (ign : Nibble) (s : State), ∃ t, exec (.ret ign) s = .next t ∧
    t.pc.toNat = (s.readByte s.sp.toNat).toNat * 256 + (s.readByte (s.sp.toNat + 1)).toNat ∧
    t.sp = s.sp + 2#16 ∧ Frame [] [.sp] [] s t

/-- O20. A call and then a return come back to the instruction after the call, with `SP` back (95_test_vectors.md E9; R102,
R103; decisions D8, D9; the ignored nibble: D11, log 8). -/
def Obligations.CallThenReturn : Prop :=
  ∀ (nnn : Addr) (ign : Nibble) (s : State), ∃ t u, exec (.call nnn) s = .next t ∧ exec (.ret ign) t = .next u ∧
    u.pc = s.nextPc ∧ u.sp = s.sp

/-- O21. `SE Vx, kk` and `SNE Vx, kk` with their encodings `3xkk` and `4xkk` (R104, R105). -/
def Obligations.SkipOnImmediate : Prop :=
  ∀ (x : Nibble) (kk : Byte) (s : State),
    decode (0x3#4 ++ x ++ kk) = .named (.seImm x kk) ∧ decode (0x4#4 ++ x ++ kk) = .named (.sneImm x kk) ∧
    (∃ t, exec (.seImm x kk) s = .next t ∧ t.pc = (if s.getV x = kk then s.pc + 4#16 else s.pc + 2#16) ∧
      Frame [] [] [] s t) ∧
    (∃ t, exec (.sneImm x kk) s = .next t ∧ t.pc = (if s.getV x ≠ kk then s.pc + 4#16 else s.pc + 2#16) ∧
      Frame [] [] [] s t)

/-- O22. `SE Vx, Vy` and `SNE Vx, Vy` with their encodings `5xy_` and `9xy_` (R106, R107). That the low nibble
does not matter is the spec's decision D11 (R77); that it is kept as an operand is the model's choice, log 8. -/
def Obligations.SkipOnRegister : Prop :=
  ∀ (x y ign : Nibble) (s : State),
    decode (0x5#4 ++ x ++ y ++ ign) = .named (.seReg x y ign) ∧
    decode (0x9#4 ++ x ++ y ++ ign) = .named (.sneReg x y ign) ∧
    (∃ t, exec (.seReg x y ign) s = .next t ∧ t.pc = (if s.getV x = s.getV y then s.pc + 4#16 else s.pc + 2#16) ∧
      Frame [] [] [] s t) ∧
    (∃ t, exec (.sneReg x y ign) s = .next t ∧ t.pc = (if s.getV x ≠ s.getV y then s.pc + 4#16 else s.pc + 2#16) ∧
      Frame [] [] [] s t)

/-- O23. `JP V0, nnn` keeps the whole sum, and never halts (R108; 16 bits kept: the spec's decision D7; no halt: D10). -/
def Obligations.JumpWithOffset : Prop :=
  ∀ (nnn : Addr) (s : State), ∃ t, exec (.jpV0 nnn) s = .next t ∧
    t.pc.toNat = nnn.toNat + (s.getV 0x0#4).toNat ∧ Frame [] [] [] s t

/-! ### Arithmetic and logic -/

/-- O24. `LD Vx, kk` and `LD Vx, Vy` with their encodings `6xkk` and `8xy0` (R122, R124). -/
def Obligations.LoadRegister : Prop :=
  ∀ (x y : Nibble) (kk : Byte) (s : State),
    decode (0x6#4 ++ x ++ kk) = .named (.ldImm x kk) ∧ decode (0x8#4 ++ x ++ y ++ 0x0#4) = .named (.ldReg x y) ∧
    (∃ t, exec (.ldImm x kk) s = .next t ∧ t.getV x = kk ∧ t.pc = s.pc + 2#16 ∧ Frame [x] [] [] s t) ∧
    (∃ t, exec (.ldReg x y) s = .next t ∧ t.getV x = s.getV y ∧ t.pc = s.pc + 2#16 ∧ Frame [x] [] [] s t)

/-- O25. `ADD Vx, kk` wraps and writes no other register (R123; that VF is kept is the spec's decision D16). -/
def Obligations.AddImmediate : Prop :=
  ∀ (x : Nibble) (kk : Byte) (s : State), ∃ t, exec (.addImm x kk) s = .next t ∧
    (t.getV x).toNat = ((s.getV x).toNat + kk.toNat) % 256 ∧ t.pc = s.nextPc ∧ Frame [x] [] [] s t

/-- O26. `OR`, `AND`, `XOR`, bit by bit (R125, R126, R127; that VF is kept is the spec's decision D16). -/
def Obligations.BitwiseLogic : Prop :=
  ∀ (x y : Nibble) (s : State),
    (∃ t, exec (.orReg x y) s = .next t ∧
      (∀ j, (t.getV x).getLsbD j = ((s.getV x).getLsbD j || (s.getV y).getLsbD j)) ∧
      t.pc = s.nextPc ∧ Frame [x] [] [] s t) ∧
    (∃ t, exec (.andReg x y) s = .next t ∧
      (∀ j, (t.getV x).getLsbD j = ((s.getV x).getLsbD j && (s.getV y).getLsbD j)) ∧
      t.pc = s.nextPc ∧ Frame [x] [] [] s t) ∧
    (∃ t, exec (.xorReg x y) s = .next t ∧
      (∀ j, (t.getV x).getLsbD j = ((s.getV x).getLsbD j != (s.getV y).getLsbD j)) ∧
      t.pc = s.nextPc ∧ Frame [x] [] [] s t)

/-- O27. `ADD Vx, Vy`: the carry in VF first, then the sum, with every aliasing of VF (R121, R128; the aliased cases are
the spec's decision D12). -/
def Obligations.AddWithCarry : Prop :=
  ∀ (x y : Nibble) (s : State) (a b c : Nat), a = (s.getV x).toNat → b = (s.getV y).toNat →
    c = (if 255 < a + b then 1 else 0) →
    ∃ t, exec (.addReg x y) s = .next t ∧
      t.vf.toNat = (if x = flagReg then (if y = flagReg then 2 * c else (c + b) % 256) else c) ∧
      (x ≠ flagReg → (t.getV x).toNat = (if y = flagReg then (a + c) % 256 else (a + b) % 256)) ∧
      t.pc = s.nextPc ∧ Frame [x, flagReg] [] [] s t

/-- O28. `SUB Vx, Vy` under both values of `SUB_FLAG_MODE`, with every aliasing of VF (R121, R129; decisions D12, D13). -/
def Obligations.Subtract : Prop :=
  ∀ (x y : Nibble) (s : State) (a b c : Nat), a = (s.getV x).toNat → b = (s.getV y).toNat →
    c = (if s.cfg.subFlagMode = .sourceAlwaysOne ∨ b ≤ a then 1 else 0) →
    ∃ t, exec (.sub x y) s = .next t ∧
      t.vf.toNat = (if x = flagReg then (if y = flagReg then 0 else (256 + c - b) % 256) else c) ∧
      (x ≠ flagReg → (t.getV x).toNat = (if y = flagReg then (256 + a - c) % 256 else (256 + a - b) % 256)) ∧
      t.pc = s.nextPc ∧ Frame [x, flagReg] [] [] s t

/-- O29. `SUBN Vx, Vy`, to which `SUB_FLAG_MODE` does not apply, with every aliasing of VF (R121, R131; decision D12). -/
def Obligations.ReverseSubtract : Prop :=
  ∀ (x y : Nibble) (s : State) (a b c : Nat), a = (s.getV x).toNat → b = (s.getV y).toNat →
    c = (if a ≤ b then 1 else 0) →
    ∃ t, exec (.subn x y) s = .next t ∧
      t.vf.toNat = (if x = flagReg then (if y = flagReg then 0 else (256 + b - c) % 256) else c) ∧
      (x ≠ flagReg → (t.getV x).toNat = (if y = flagReg then (256 + c - a) % 256 else (256 + b - a) % 256)) ∧
      t.pc = s.nextPc ∧ Frame [x, flagReg] [] [] s t

/-- O30. `SHR Vx` and `SHL Vx` in place, whatever `y`, under both values of `SHL_FLAG_MODE` (R121, R130, R132; decisions
D12, D14, D15; the ignored `y` kept as an operand: log 8). -/
def Obligations.Shifts : Prop :=
  ∀ (x y : Nibble) (s : State) (a : Nat), a = (s.getV x).toNat →
    (∃ t, exec (.shr x y) s = .next t ∧ t.vf.toNat = (if x = flagReg then 0 else a % 2) ∧
      (x ≠ flagReg → (t.getV x).toNat = a / 2) ∧ t.pc = s.nextPc ∧ Frame [x, flagReg] [] [] s t) ∧
    (∃ t, exec (.shl x y) s = .next t ∧
      t.vf.toNat = (match s.cfg.shlFlagMode with
        | .rawMask => if x = flagReg then 0 else 128 * (a / 128)
        | .normalized => if x = flagReg then 2 * (a / 128) else a / 128) ∧
      (x ≠ flagReg → (t.getV x).toNat = 2 * a % 256) ∧ t.pc = s.nextPc ∧ Frame [x, flagReg] [] [] s t)

/-! ### Index and memory -/

/-- O31. `LD I, nnn` with its encoding `Annn` (R150). -/
def Obligations.LoadIndex : Prop :=
  ∀ (nnn : Addr) (s : State), decode (0xA#4 ++ nnn) = .named (.ldI nnn) ∧
    ∃ t, exec (.ldI nnn) s = .next t ∧ t.i.toNat = nnn.toNat ∧ t.pc = s.pc + 2#16 ∧ Frame [] [.i] [] s t

/-- O32. `ADD I, Vx` keeps the 16-bit sum and no flag; `LD F, Vx` is five times the low nibble (R151 with decision D17; R152
with decision D6). -/
def Obligations.AddIndexAndGlyph : Prop :=
  ∀ (x : Nibble) (s : State),
    (∃ t, exec (.addI x) s = .next t ∧ t.i.toNat = (s.i.toNat + (s.getV x).toNat) % 65536 ∧ t.pc = s.nextPc ∧
      Frame [] [.i] [] s t) ∧
    (∃ t, exec (.ldF x) s = .next t ∧ t.i.toNat = 5 * ((s.getV x).toNat % 16) ∧ t.pc = s.nextPc ∧
      Frame [] [.i] [] s t)

/-- O33. `LD B, Vx` with its encoding `Fx33`: the three decimal digits at `I`, `I + 1`, `I + 2`, and no other byte (R153;
that `I` is kept is the spec's decision D18). -/
def Obligations.DecimalDigits : Prop :=
  ∀ (x : Nibble) (s : State), decode (0xF#4 ++ x ++ 0x33#8) = .named (.ldB x) ∧
    ∃ t, exec (.ldB x) s = .next t ∧
      (t.readByte (s.indexAddr 0)).toNat = (s.getV x).toNat / 100 ∧
      (t.readByte (s.indexAddr 1)).toNat = (s.getV x).toNat / 10 % 10 ∧
      (t.readByte (s.indexAddr 2)).toNat = (s.getV x).toNat % 10 ∧
      t.pc = s.pc + 2#16 ∧ Frame [] [] [s.indexAddr 0, s.indexAddr 1, s.indexAddr 2] s t

/-- O34. `LD [I], Vx` stores `V0 .. Vx` at `I ..` and no other byte (R154; that `I` is kept is the spec's decision D18). -/
def Obligations.BulkStore : Prop :=
  ∀ (x : Nibble) (s : State), ∃ t, exec (.ldMemVx x) s = .next t ∧
    (∀ r : Nibble, r.toNat ≤ x.toNat → t.readByte (s.indexAddr r.toNat) = s.getV r) ∧ t.pc = s.nextPc ∧
    Frame [] [] ((List.range (x.toNat + 1)).map s.indexAddr) s t

/-- O35. `LD Vx, [I]` loads `V0 .. Vx` and no other register (R155; that `I` is kept is the spec's decision D18). -/
def Obligations.BulkLoad : Prop :=
  ∀ (x : Nibble) (s : State), ∃ t, exec (.ldVxMem x) s = .next t ∧
    (∀ r : Nibble, t.getV r = if r.toNat ≤ x.toNat then s.readByte (s.indexAddr r.toNat) else s.getV r) ∧
    t.pc = s.nextPc ∧ Frame ((List.range (x.toNat + 1)).map (BitVec.ofNat 4)) [] [] s t

/-- O36. Stored and loaded from the same `I`, the registers `V0 .. Vx` come back, whatever they held in between
(95_test_vectors.md E4; R154, R155). That the load runs at the `I` the store left as it was is the spec's decision D18
(log 18). -/
def Obligations.StoreThenLoadRestores : Prop :=
  ∀ (x : Nibble) (s : State) (v : Vector Reg nRegs), ∃ t u, exec (.ldMemVx x) s = .next t ∧
    exec (.ldVxMem x) { t with v := v } = .next u ∧ ∀ r : Nibble, r.toNat ≤ x.toNat → u.getV r = s.getV r

/-- O37. A store over the next instruction is what the next fetch reads (R268; R63 is the spec's decision D28). -/
def Obligations.StoreIsFetchedNext : Prop :=
  ∀ (x : Nibble) (s : State), 1 ≤ x.toNat → s.i = s.pc + 2#16 → ∃ t, exec (.ldMemVx x) s = .next t ∧
    t.fetchWord.toNat = (s.getV 0x0#4).toNat * 256 + (s.getV 0x1#4).toNat

/-! ### Timers, random byte and key -/

/-- O38. `LD Vx, DT`, `LD DT, Vx` and `LD ST, Vx` with their encodings `Fx07`, `Fx15`, `Fx18`; a nonzero `ST` is
`sound_active` (R172; of R173 and R174 the pseudocode and the encoding: what a later tick does is O43, that no instruction
reads `ST` is O56; R236). -/
def Obligations.TimerRegisters : Prop :=
  ∀ (x : Nibble) (s : State),
    decode (0xF#4 ++ x ++ 0x07#8) = .named (.ldVxDt x) ∧ decode (0xF#4 ++ x ++ 0x15#8) = .named (.ldDtVx x) ∧
    decode (0xF#4 ++ x ++ 0x18#8) = .named (.ldStVx x) ∧
    (∃ t, exec (.ldVxDt x) s = .next t ∧ t.getV x = s.dt ∧ t.pc = s.pc + 2#16 ∧ Frame [x] [] [] s t) ∧
    (∃ t, exec (.ldDtVx x) s = .next t ∧ t.dt = s.getV x ∧ t.pc = s.pc + 2#16 ∧ Frame [] [.dt] [] s t) ∧
    (∃ t, exec (.ldStVx x) s = .next t ∧ t.st = s.getV x ∧ t.pc = s.pc + 2#16 ∧
      (t.soundActive = true ↔ s.getV x ≠ 0x00#8) ∧ Frame [] [.st] [] s t) ∧
    (s.soundActive = true ↔ s.st ≠ 0x00#8)

/-- O39. `RND Vx, kk`: some byte ANDed with `kk`, so no bit outside `kk` is ever set; the next draw takes another free
value (R170 with decision D21; how the byte is drawn is the model's, log 3; nothing is stated of its value). -/
def Obligations.RandomByteIsMasked : Prop :=
  ∀ (x : Nibble) (kk : Byte) (s : State), ∃ t, exec (.rnd x kk) s = .next t ∧
    (∃ r : Byte, r = Config.randomByte s.draws ∧ t.getV x = r &&& kk) ∧
    (∀ j, kk.getLsbD j = false → (t.getV x).getLsbD j = false) ∧ t.draws = s.draws + 1 ∧ t.pc = s.nextPc ∧
    Frame [x] [.draws] [] s t

/-- O40. `LD Vx, K` is issued: `WAIT_KEY` with `wait_x = x`, `PC` kept (R171 step 1 with decision D22). -/
def Obligations.KeyReadIssues : Prop :=
  ∀ (x : Nibble) (s : State), ∃ t, exec (.ldVxK x) s = .next t ∧ t.status = .waitKey ∧ t.waitX = x ∧ t.pc = s.pc ∧
    Frame [] [.status, .waitX] [] s t

/-- O41. A key offered to a waiting engine completes the read; offered at any other time it is not taken (R171 step 2,
R233, with decisions D2, D22; that the offer completes the read in one move is log 13; the moves are log 1). -/
def Obligations.KeyCompletesOnlyAWait : Prop :=
  ∀ (s : State) (k : Byte), s.loadError = false → s.nextMove = .key k →
    (s.status = .waitKey → ∃ t, step s = .next t ∧ t.getV s.waitX = k ∧ t.status = .run ∧ t.pc = s.nextPc ∧
      Frame [s.waitX] [.status, .schedule] [] s t) ∧
    (s.status ≠ .waitKey → step s = .next s.popMove)

/-- O42. The whole blocking read: the issue, any number of ticks and then the key leave the key in `V[x]`, and the timer
driver was not blocked (R171, R231, with decisions D22, D23). That the one move that offers the key completes the read, where
R171 and R233 tell the offer from the engine's step 2, is the model's choice, log 13; the schedule of the moves is log 1. -/
def Obligations.BlockingReadWithTicks : Prop :=
  ∀ (n : Nat) (x : Nibble) (k : Byte) (rest : List Move) (s : State), s.loadError = false → s.status = .run →
    decode s.fetchWord = .named (.ldVxK x) → s.schedule = .engine :: (List.replicate n .tick ++ .key k :: rest) →
    ∃ t, steps (n + 2) s = .next t ∧ t.getV x = k ∧ t.status = .run ∧ t.pc = s.nextPc ∧
      t.dt.toNat = s.dt.toNat - n ∧ t.schedule = rest ∧ ∀ r, r ≠ x → t.getV r = s.getV r

/-- O43. One tick, in any engine status: both timers one nearer to zero, never below, and `redraw` set (R229). That it
ticks in every status is the spec's decision D23 (R231); the next move and the schedule are the model's, log 1. -/
def Obligations.TickCountsDown : Prop :=
  ∀ s : State, s.loadError = false → s.nextMove = .tick → ∃ t, step s = .next t ∧
    t.dt.toNat = s.dt.toNat - 1 ∧ t.st.toNat = s.st.toNat - 1 ∧ t.redraw = true ∧ t.pc = s.pc ∧
    Frame [] [.dt, .st, .redraw, .schedule] [] s t

/-- O44. `n` ticks in a row take both timers down by `n`, stopping at zero: ticks are neither lost nor merged (R229,
R230 with decisions D1, D33; log 14; the schedule: log 1). -/
def Obligations.TicksAreNotLost : Prop :=
  ∀ (n : Nat) (rest : List Move) (s : State), s.loadError = false → s.schedule = List.replicate n .tick ++ rest →
    ∃ t, steps n s = .next t ∧ t.dt.toNat = s.dt.toNat - n ∧ t.st.toNat = s.st.toNat - n ∧
      t.schedule = rest ∧ t.pc = s.pc ∧ t.v = s.v

/-- O45. A tick and an instruction that neither reads nor writes a timer commute: nothing of a tick lands inside an
instruction, and a program sees it only through the timers (R57 with decision D1; R225). For `RND` both orders draw the same free byte, because a tick keeps
`draws`: that is the model's choice, log 3. -/
def Obligations.TickCommutesWithInstruction : Prop :=
  ∀ (i : Instr) (s t : State), i.kind ∉ [Kind.ldVxDt, .ldDtVx, .ldStVx] → exec i s = .next t →
    exec i s.tick = .next t.tick

/-! ### Display -/

/-- O46. `CLS` with its encoding `0_E0`: every pixel false and `redraw` set (R190). That the
nibble 11:8 does not matter is the spec's decision D11 (R76); that it is kept as an operand is the model's choice, log 8. -/
def Obligations.ClearScreen : Prop :=
  ∀ (ign : Nibble) (s : State), decode (0x0#4 ++ ign ++ 0xE0#8) = .named (.cls ign) ∧
    ∃ t, exec (.cls ign) s = .next t ∧ (∀ y x, Framebuffer.pixel t.fb y x = false) ∧ t.redraw = true ∧
      t.pc = s.pc + 2#16 ∧ Frame [] [.fb, .redraw] [] s t

/-- O47. `DRW Vx, Vy, n` is the XOR of the sprite into the framebuffer, cut at the edge that `DRAW_EDGE` selects, and VF
tells whether a set pixel was cleared (R191, R192, R193; height, order and clearing of VF are decision D19, the edge is
D20, the bit order is log 19). -/
def Obligations.DrawIsXorOfSprite : Prop :=
  ∀ (x y n : Nibble) (s : State), ∃ t, exec (.drw x y n) s = .next t ∧
    (∀ py px, Framebuffer.pixel t.fb py px =
      (Framebuffer.pixel s.fb py px != drawsAt s (s.getV x) (s.getV y) n py px)) ∧
    ((∃ py px, Framebuffer.pixel s.fb py px = true ∧ drawsAt s (s.getV x) (s.getV y) n py px = true) → t.vf = 0x01#8) ∧
    ((¬∃ py px, Framebuffer.pixel s.fb py px = true ∧ drawsAt s (s.getV x) (s.getV y) n py px = true) → t.vf = 0x00#8) ∧
    t.redraw = true ∧ t.pc = s.nextPc ∧ Frame [flagReg] [.fb, .redraw] [] s t

/-- O48. Under `EXCLUSIVE` no draw changes column 63 or row 31 (R193, decision D20). -/
def Obligations.ExclusiveEdgeIsNeverDrawn : Prop :=
  ∀ (x y n : Nibble) (s : State), s.cfg.drawEdge = .exclusive → ∃ t, exec (.drw x y n) s = .next t ∧
    ∀ p, Framebuffer.pixel t.fb p 63 = Framebuffer.pixel s.fb p 63 ∧
      Framebuffer.pixel t.fb 31 p = Framebuffer.pixel s.fb 31 p

/-- O49. The same sprite drawn twice leaves the framebuffer as it was, and the second draw reports a collision exactly when
the first draw set a pixel (95_test_vectors.md E6; R191, R192, decision D19). Coordinates held in VF are not in this
statement, because the first draw changes them (R191 clears VF after reading them); DrawIsXorOfSprite covers that form. -/
def Obligations.DrawTwiceErases : Prop :=
  ∀ (x y n : Nibble) (s : State), x ≠ flagReg → y ≠ flagReg → ∃ t u, exec (.drw x y n) s = .next t ∧
    exec (.drw x y n) t = .next u ∧ u.fb = s.fb ∧
    (u.vf = 0x01#8 ↔ ∃ py px, Framebuffer.pixel s.fb py px = false ∧ Framebuffer.pixel t.fb py px = true)

/-- O50. A consumed render clears `redraw` and changes nothing else of the core (R235 with decisions D2, D36; the move and the
schedule are the model's, logs 1 and 21). -/
def Obligations.RenderConsumes : Prop :=
  ∀ s : State, s.loadError = false → s.nextMove = .render → ∃ t, step s = .next t ∧ t.redraw = false ∧ t.pc = s.pc ∧
    t.schedule = s.schedule.tail ∧ Frame [] [.redraw, .schedule] [] s t

/-! ### Key skips -/

/-- O51. `SKNP Vx` with its encoding `ExA1` never skips and changes nothing but `PC` (R211; as `SKP`, decision D32). -/
def Obligations.SknpIsNoOp : Prop :=
  ∀ (x : Nibble) (s : State), decode (0xE#4 ++ x ++ 0xA1#8) = .named (.sknp x) ∧
    ∃ t, exec (.sknp x) s = .next t ∧ t.pc = s.pc + 2#16 ∧ Frame [] [] [] s t

/-- O52. `SKP Vx` never skips and changes nothing but `PC` (R210 with decision D32). -/
def Obligations.SkpIsNoOp : Prop :=
  ∀ (x : Nibble) (s : State), ∃ t, exec (.skp x) s = .next t ∧ t.pc = s.nextPc ∧ Frame [] [] [] s t

/-! ### Whole-machine rules -/

/-- O53. `PC` after every instruction is that of the table of R23 (with the decisions D7, D9, D10, D22 and D32 of its rows). -/
def Obligations.ProgramCounterTable : Prop :=
  ∀ (i : Instr) (s : State), ∃ t, exec i s = .next t ∧ t.pc = pcAfter i s

/-- O54. No instruction outside the list of R21 changes `VF`, unless it names `VF` as its destination (R21; decision D16). -/
def Obligations.OnlyFlagWritersChangeVf : Prop :=
  ∀ (i : Instr) (s t : State), exec i s = .next t → t.vf ≠ s.vf → i.kind ∈ flagKinds ∨ flagReg ∈ destRegs i

/-- O55. Which instructions alone can change each piece of state but `PC` (of which O53 speaks): a register only by being a
destination or by being `VF` under the list of R21, then `I`, `SP`, `DT`, `ST`, `FB`, `mem`, `redraw`, `status`, `wait_x`;
and none changes the halt record, the configuration or the load error (R20, R21, R24, R25, R26, R27, R29, R30, R31, R32,
R33, R34, R56). `VF` kept by the bitwise instructions is the spec's decision D16, `I` kept by the bulk ones D18, the status
and `redraw` of `JP` alone D10, the wait D22. `draws` and `schedule` are the model's own, logs 3 and 1. -/
def Obligations.WhoWritesWhat : Prop :=
  ∀ (i : Instr) (s t : State), exec i s = .next t →
    (∀ r, t.getV r ≠ s.getV r → r ∈ destRegs i ∨ (r = flagReg ∧ i.kind ∈ flagKinds)) ∧
    (t.i ≠ s.i → i.kind ∈ [Kind.ldI, .addI, .ldF]) ∧ (t.sp ≠ s.sp → i.kind ∈ [Kind.call, .ret]) ∧
    (t.dt ≠ s.dt → i.kind = .ldDtVx) ∧ (t.st ≠ s.st → i.kind = .ldStVx) ∧
    (t.fb ≠ s.fb → i.kind ∈ [Kind.cls, .drw]) ∧ (t.mem ≠ s.mem → i.kind ∈ [Kind.call, .ldB, .ldMemVx]) ∧
    (t.redraw ≠ s.redraw → i.kind ∈ [Kind.cls, .drw, .jp]) ∧ (t.status ≠ s.status → i.kind ∈ [Kind.jp, .ldVxK]) ∧
    (t.waitX ≠ s.waitX → i.kind = .ldVxK) ∧ (t.draws ≠ s.draws → i.kind = .rnd) ∧
    t.errAddr = s.errAddr ∧ t.errWord = s.errWord ∧ t.cfg = s.cfg ∧ t.loadError = s.loadError ∧ t.schedule = s.schedule

/-- O56. No instruction reads `ST`: with another value in it the same instruction does the same to all the rest (R27). For
`RND` both runs draw the same free byte, because they have the same `draws`: that is the model's choice, log 3. -/
def Obligations.SoundTimerIsNotRead : Prop :=
  ∀ (i : Instr) (s t : State) (b : Timer), exec i s = .next t →
    exec i { s with st := b } = .next { t with st := if i.kind = .ldStVx then t.st else b }

/-- O57. No instruction reads `redraw`: with another value in it the same instruction does the same to all the rest (R30).
For `RND` both runs draw the same free byte, because they have the same `draws`: that is the model's choice, log 3. -/
def Obligations.RedrawIsNotRead : Prop :=
  ∀ (i : Instr) (s t : State) (b : Bool), exec i s = .next t →
    ∃ b', exec i { s with redraw := b } = .next { t with redraw := b' } ∧ (b' = b ∨ b' = true)

/-! ### Reset -/

/-- O58. The registers at reset under any configuration (R260; all but `PC`, `SP` and `status` are the spec's decision D5;
the halt record and `wait_x` are D22, D24). -/
def Obligations.ResetRegisters : Prop :=
  ∀ (c : Config) (rom : Option (List Byte)), (∀ r, (State.boot c rom).getV r = 0x00#8) ∧
    (State.boot c rom).pc = c.loadAddr ∧ (State.boot c rom).sp = c.stackBase ∧ (State.boot c rom).i = 0x0000#16 ∧
    (State.boot c rom).dt = 0x00#8 ∧ (State.boot c rom).st = 0x00#8 ∧ (State.boot c rom).redraw = false ∧
    (State.boot c rom).status = .run ∧ (State.boot c rom).errAddr = 0x0000#16 ∧
    (State.boot c rom).errWord = 0x0000#16 ∧ (State.boot c rom).waitX = 0x0#4 ∧
    ∀ y x, Framebuffer.pixel (State.boot c rom).fb y x = false

/-- O59. The memory after a load that fits: the font at 0 to 79, the image verbatim from `LOAD_ADDR`, 0x00 elsewhere (R261
with decision D6, R263; the zeros are the spec's decision D5), under a configuration that meets R7. -/
def Obligations.LoadedMemory : Prop :=
  ∀ (c : Config) (image : List Byte), c.wellFormed = true → image.length ≤ memSize - c.loadAddr.toNat →
    (State.boot c (some image)).loadError = false ∧
    (∀ a (h : a < fontBytes), (State.boot c (some image)).readByte a = c.font[a]) ∧
    (∀ j (h : j < image.length), (State.boot c (some image)).readByte (c.loadAddr.toNat + j) = image[j]) ∧
    ∀ a, fontBytes ≤ a → a < memSize → (a < c.loadAddr.toNat ∨ c.loadAddr.toNat + image.length ≤ a) →
      (State.boot c (some image)).readByte a = 0x00#8

/-- O60. The load fails exactly for an unreadable image or one longer than `MEM_SIZE - LOAD_ADDR` (R264 with decision D29),
and a reset move boots the core under the same configuration whatever state it was in (R260; log 12). -/
def Obligations.ResetMoveBoots : Prop :=
  (∀ (c : Config) (rom : Option (List Byte)), (State.boot c rom).loadError = true ↔
    ∀ image, rom = some image → memSize - c.loadAddr.toNat < image.length) ∧
  ∀ (s : State) (rom : Option (List Byte)), s.nextMove = .reset rom → ∃ t, step s = .next t ∧
    t = { State.boot s.cfg rom with schedule := s.schedule.tail, draws := s.draws }
end

