-- ==== Sys2Proof/Laws/Decode.lean ====
section
/-! SUPPORT. The fields of a word put together by a format are the parts it was put together from (30_encoding.md R72),
and a word is put together from its fields. -/

namespace Sys2Proof

@[simp] theorem fieldG_formNnn (g : Nibble) (nnn : Addr) : fieldG (formNnn g nnn) = g := by
  ext i h; simp only [fieldG, formNnn, BitVec.getElem_extractLsb']; grind
@[simp] theorem fieldNnn_formNnn (g : Nibble) (nnn : Addr) : fieldNnn (formNnn g nnn) = nnn := by
  ext i h; simp only [fieldNnn, formNnn, BitVec.getElem_extractLsb']; grind

@[simp] theorem fieldG_formXkk (g x : Nibble) (kk : Byte) : fieldG (formXkk g x kk) = g := by
  ext i h; simp only [fieldG, formXkk, BitVec.getElem_extractLsb']; grind
@[simp] theorem fieldX_formXkk (g x : Nibble) (kk : Byte) : fieldX (formXkk g x kk) = x := by
  ext i h; simp only [fieldX, formXkk, BitVec.getElem_extractLsb']; grind
@[simp] theorem fieldKk_formXkk (g x : Nibble) (kk : Byte) : fieldKk (formXkk g x kk) = kk := by
  ext i h; simp only [fieldKk, formXkk, BitVec.getElem_extractLsb']; grind

@[simp] theorem fieldG_formXyn (g x y n : Nibble) : fieldG (formXyn g x y n) = g := by
  ext i h; simp only [fieldG, formXyn, BitVec.getElem_extractLsb']; grind
@[simp] theorem fieldX_formXyn (g x y n : Nibble) : fieldX (formXyn g x y n) = x := by
  ext i h; simp only [fieldX, formXyn, BitVec.getElem_extractLsb']; grind
@[simp] theorem fieldY_formXyn (g x y n : Nibble) : fieldY (formXyn g x y n) = y := by
  ext i h; simp only [fieldY, formXyn, BitVec.getElem_extractLsb']; grind
@[simp] theorem fieldN_formXyn (g x y n : Nibble) : fieldN (formXyn g x y n) = n := by
  ext i h; simp only [fieldN, formXyn, BitVec.getElem_extractLsb']; grind

theorem formNnn_fields (w : Word) : formNnn (fieldG w) (fieldNnn w) = w := by
  ext i h; simp only [formNnn, fieldG, fieldNnn]; grind
theorem formXkk_fields (w : Word) : formXkk (fieldG w) (fieldX w) (fieldKk w) = w := by
  ext i h; simp only [formXkk, fieldG, fieldX, fieldKk]; grind
theorem formXyn_fields (w : Word) : formXyn (fieldG w) (fieldX w) (fieldY w) (fieldN w) = w := by
  ext i h; simp only [formXyn, fieldG, fieldX, fieldY, fieldN]; grind

/-! ### Masks of the opcode map -/

theorem nibble_and_ones (g : Nibble) : g &&& 0xF#4 = g := by revert g; decide

theorem byte_and_ones (b : Byte) : b &&& 0xFF#8 = b := BitVec.and_allOnes

theorem formNnn_masked (g : Nibble) (nnn : Addr) : formNnn g nnn &&& 0xF000#16 = formNnn g 0#12 := by
  rw [show (0xF000#16) = 0xF#4 ++ 0#12 by decide, formNnn, BitVec.and_append, nibble_and_ones, BitVec.and_zero]
  rfl

theorem formXkk_masked (g x : Nibble) (kk : Byte) : formXkk g x kk &&& 0xF000#16 = formXkk g 0#4 0#8 := by
  rw [show (0xF000#16) = 0xF#4 ++ 0#4 ++ 0#8 by decide, formXkk, BitVec.and_append, BitVec.and_append,
    nibble_and_ones, BitVec.and_zero, BitVec.and_zero]
  rfl

theorem formXkk_masked_sub (g x : Nibble) (kk : Byte) : formXkk g x kk &&& 0xF0FF#16 = formXkk g 0#4 kk := by
  rw [show (0xF0FF#16) = 0xF#4 ++ 0#4 ++ 0xFF#8 by decide, formXkk, BitVec.and_append, BitVec.and_append,
    nibble_and_ones, BitVec.and_zero, byte_and_ones]
  rfl

theorem formXyn_masked (g x y n : Nibble) : formXyn g x y n &&& 0xF000#16 = formXyn g 0#4 0#4 0#4 := by
  rw [show (0xF000#16) = 0xF#4 ++ 0#4 ++ 0#4 ++ 0#4 by decide, formXyn, BitVec.and_append, BitVec.and_append,
    BitVec.and_append, nibble_and_ones, BitVec.and_zero, BitVec.and_zero, BitVec.and_zero]
  rfl

theorem formXyn_masked_sub (g x y n : Nibble) : formXyn g x y n &&& 0xF00F#16 = formXyn g 0#4 0#4 n := by
  rw [show (0xF00F#16) = 0xF#4 ++ 0#4 ++ 0#4 ++ 0xF#4 by decide, formXyn, BitVec.and_append, BitVec.and_append,
    BitVec.and_append, nibble_and_ones, BitVec.and_zero, BitVec.and_zero, nibble_and_ones]
  rfl

end Sys2Proof
end

