-- ==== Sys2Proof/Laws/State.lean ====
section
/-! SUPPORT. The state's simp lemmas: for each update of Machine/Ops.lean, Operands.lean and Agents.lean that is one record
update, what it makes of each field. -/

namespace Sys2Proof.Machine

/-! ### Widths: at the sizes of R5 a value moved to another place is the same value -/

@[simp] theorem regOfByte_eq (b : Byte) : regOfByte b = b := by simp [regOfByte]
@[simp] theorem byteOfReg_eq (r : Reg) : byteOfReg r = r := by simp [byteOfReg]
@[simp] theorem regOfTimer_eq (t : Timer) : regOfTimer t = t := by simp [regOfTimer]
@[simp] theorem timerOfReg_eq (r : Reg) : timerOfReg r = r := by simp [timerOfReg]
@[simp] theorem wordOfPc_eq (a : Pc) : wordOfPc a = a := by simp [wordOfPc]
@[simp] theorem pcOfWord_eq (w : Word) : pcOfWord w = w := by simp [pcOfWord]
@[simp] theorem pcOfAddr_toNat (nnn : Addr) : (pcOfAddr nnn).toNat = nnn.toNat := BitVec.toNat_setWidth_of_le (by decide)
@[simp] theorem indexOfAddr_toNat (nnn : Addr) : (indexOfAddr nnn).toNat = nnn.toNat := BitVec.toNat_setWidth_of_le (by decide)
@[simp] theorem pcOfReg_toNat (r : Reg) : (pcOfReg r).toNat = r.toNat := BitVec.toNat_setWidth_of_le (by decide)
@[simp] theorem indexOfReg_toNat (r : Reg) : (indexOfReg r).toNat = r.toNat := BitVec.toNat_setWidth_of_le (by decide)
@[simp] theorem two_pow_vWidth : 2 ^ vWidth = 256 := rfl
@[simp] theorem two_pow_tWidth : 2 ^ tWidth = 256 := rfl
@[simp] theorem two_pow_pcWidth : 2 ^ pcWidth = 65536 := rfl
@[simp] theorem two_pow_iWidth : 2 ^ iWidth = 65536 := rfl
@[simp] theorem two_pow_spWidth : 2 ^ spWidth = 65536 := rfl
theorem fontBytes_eq : fontBytes = 80 := rfl
@[simp] theorem regMax_eq : regMax = 255 := rfl
@[simp] theorem regTopBit_eq : regTopBit = 0x80#8 := rfl

section
variable (s : State)

/-! ### `setV` -/

@[simp] theorem State.setV_v (x : Nibble) (b : Reg) : (s.setV x b).v = s.v.set x.toNat b x.isLt := rfl
@[simp] theorem State.setV_pc (x : Nibble) (b : Reg) : (s.setV x b).pc = s.pc := rfl
@[simp] theorem State.setV_i (x : Nibble) (b : Reg) : (s.setV x b).i = s.i := rfl
@[simp] theorem State.setV_sp (x : Nibble) (b : Reg) : (s.setV x b).sp = s.sp := rfl
@[simp] theorem State.setV_dt (x : Nibble) (b : Reg) : (s.setV x b).dt = s.dt := rfl
@[simp] theorem State.setV_st (x : Nibble) (b : Reg) : (s.setV x b).st = s.st := rfl
@[simp] theorem State.setV_mem (x : Nibble) (b : Reg) : (s.setV x b).mem = s.mem := rfl
@[simp] theorem State.setV_fb (x : Nibble) (b : Reg) : (s.setV x b).fb = s.fb := rfl
@[simp] theorem State.setV_redraw (x : Nibble) (b : Reg) : (s.setV x b).redraw = s.redraw := rfl
@[simp] theorem State.setV_status (x : Nibble) (b : Reg) : (s.setV x b).status = s.status := rfl
@[simp] theorem State.setV_errAddr (x : Nibble) (b : Reg) : (s.setV x b).errAddr = s.errAddr := rfl
@[simp] theorem State.setV_errWord (x : Nibble) (b : Reg) : (s.setV x b).errWord = s.errWord := rfl
@[simp] theorem State.setV_waitX (x : Nibble) (b : Reg) : (s.setV x b).waitX = s.waitX := rfl
@[simp] theorem State.setV_cfg (x : Nibble) (b : Reg) : (s.setV x b).cfg = s.cfg := rfl
@[simp] theorem State.setV_loadError (x : Nibble) (b : Reg) : (s.setV x b).loadError = s.loadError := rfl
@[simp] theorem State.setV_schedule (x : Nibble) (b : Reg) : (s.setV x b).schedule = s.schedule := rfl
@[simp] theorem State.setV_draws (x : Nibble) (b : Reg) : (s.setV x b).draws = s.draws := rfl

/-! ### `writeByte` -/

@[simp] theorem State.writeByte_v (a : Nat) (b : Byte) : (s.writeByte a b).v = s.v := rfl
@[simp] theorem State.writeByte_pc (a : Nat) (b : Byte) : (s.writeByte a b).pc = s.pc := rfl
@[simp] theorem State.writeByte_i (a : Nat) (b : Byte) : (s.writeByte a b).i = s.i := rfl
@[simp] theorem State.writeByte_sp (a : Nat) (b : Byte) : (s.writeByte a b).sp = s.sp := rfl
@[simp] theorem State.writeByte_dt (a : Nat) (b : Byte) : (s.writeByte a b).dt = s.dt := rfl
@[simp] theorem State.writeByte_st (a : Nat) (b : Byte) : (s.writeByte a b).st = s.st := rfl
@[simp] theorem State.writeByte_mem (a : Nat) (b : Byte) : (s.writeByte a b).mem = Memory.set s.mem (a % memSize) b := rfl
@[simp] theorem State.writeByte_fb (a : Nat) (b : Byte) : (s.writeByte a b).fb = s.fb := rfl
@[simp] theorem State.writeByte_redraw (a : Nat) (b : Byte) : (s.writeByte a b).redraw = s.redraw := rfl
@[simp] theorem State.writeByte_status (a : Nat) (b : Byte) : (s.writeByte a b).status = s.status := rfl
@[simp] theorem State.writeByte_errAddr (a : Nat) (b : Byte) : (s.writeByte a b).errAddr = s.errAddr := rfl
@[simp] theorem State.writeByte_errWord (a : Nat) (b : Byte) : (s.writeByte a b).errWord = s.errWord := rfl
@[simp] theorem State.writeByte_waitX (a : Nat) (b : Byte) : (s.writeByte a b).waitX = s.waitX := rfl
@[simp] theorem State.writeByte_cfg (a : Nat) (b : Byte) : (s.writeByte a b).cfg = s.cfg := rfl
@[simp] theorem State.writeByte_loadError (a : Nat) (b : Byte) : (s.writeByte a b).loadError = s.loadError := rfl
@[simp] theorem State.writeByte_schedule (a : Nat) (b : Byte) : (s.writeByte a b).schedule = s.schedule := rfl
@[simp] theorem State.writeByte_draws (a : Nat) (b : Byte) : (s.writeByte a b).draws = s.draws := rfl

/-! ### `advance` -/

@[simp] theorem State.advance_v : (s.advance).v = s.v := rfl
@[simp] theorem State.advance_pc : (s.advance).pc = s.pc + 2#16 := rfl
@[simp] theorem State.advance_i : (s.advance).i = s.i := rfl
@[simp] theorem State.advance_sp : (s.advance).sp = s.sp := rfl
@[simp] theorem State.advance_dt : (s.advance).dt = s.dt := rfl
@[simp] theorem State.advance_st : (s.advance).st = s.st := rfl
@[simp] theorem State.advance_mem : (s.advance).mem = s.mem := rfl
@[simp] theorem State.advance_fb : (s.advance).fb = s.fb := rfl
@[simp] theorem State.advance_redraw : (s.advance).redraw = s.redraw := rfl
@[simp] theorem State.advance_status : (s.advance).status = s.status := rfl
@[simp] theorem State.advance_errAddr : (s.advance).errAddr = s.errAddr := rfl
@[simp] theorem State.advance_errWord : (s.advance).errWord = s.errWord := rfl
@[simp] theorem State.advance_waitX : (s.advance).waitX = s.waitX := rfl
@[simp] theorem State.advance_cfg : (s.advance).cfg = s.cfg := rfl
@[simp] theorem State.advance_loadError : (s.advance).loadError = s.loadError := rfl
@[simp] theorem State.advance_schedule : (s.advance).schedule = s.schedule := rfl
@[simp] theorem State.advance_draws : (s.advance).draws = s.draws := rfl

/-! ### `skipIf` -/

@[simp] theorem State.skipIf_v (c : Bool) : (s.skipIf c).v = s.v := rfl
@[simp] theorem State.skipIf_pc (c : Bool) : (s.skipIf c).pc = if c then s.pc + 4#16 else s.pc + 2#16 := rfl
@[simp] theorem State.skipIf_i (c : Bool) : (s.skipIf c).i = s.i := rfl
@[simp] theorem State.skipIf_sp (c : Bool) : (s.skipIf c).sp = s.sp := rfl
@[simp] theorem State.skipIf_dt (c : Bool) : (s.skipIf c).dt = s.dt := rfl
@[simp] theorem State.skipIf_st (c : Bool) : (s.skipIf c).st = s.st := rfl
@[simp] theorem State.skipIf_mem (c : Bool) : (s.skipIf c).mem = s.mem := rfl
@[simp] theorem State.skipIf_fb (c : Bool) : (s.skipIf c).fb = s.fb := rfl
@[simp] theorem State.skipIf_redraw (c : Bool) : (s.skipIf c).redraw = s.redraw := rfl
@[simp] theorem State.skipIf_status (c : Bool) : (s.skipIf c).status = s.status := rfl
@[simp] theorem State.skipIf_errAddr (c : Bool) : (s.skipIf c).errAddr = s.errAddr := rfl
@[simp] theorem State.skipIf_errWord (c : Bool) : (s.skipIf c).errWord = s.errWord := rfl
@[simp] theorem State.skipIf_waitX (c : Bool) : (s.skipIf c).waitX = s.waitX := rfl
@[simp] theorem State.skipIf_cfg (c : Bool) : (s.skipIf c).cfg = s.cfg := rfl
@[simp] theorem State.skipIf_loadError (c : Bool) : (s.skipIf c).loadError = s.loadError := rfl
@[simp] theorem State.skipIf_schedule (c : Bool) : (s.skipIf c).schedule = s.schedule := rfl
@[simp] theorem State.skipIf_draws (c : Bool) : (s.skipIf c).draws = s.draws := rfl

/-! ### `jump` -/

@[simp] theorem State.jump_v (t : Word) : (s.jump t).v = s.v := rfl
@[simp] theorem State.jump_pc (t : Word) : (s.jump t).pc = t := rfl
@[simp] theorem State.jump_i (t : Word) : (s.jump t).i = s.i := rfl
@[simp] theorem State.jump_sp (t : Word) : (s.jump t).sp = s.sp := rfl
@[simp] theorem State.jump_dt (t : Word) : (s.jump t).dt = s.dt := rfl
@[simp] theorem State.jump_st (t : Word) : (s.jump t).st = s.st := rfl
@[simp] theorem State.jump_mem (t : Word) : (s.jump t).mem = s.mem := rfl
@[simp] theorem State.jump_fb (t : Word) : (s.jump t).fb = s.fb := rfl
@[simp] theorem State.jump_redraw (t : Word) : (s.jump t).redraw = s.redraw := rfl
@[simp] theorem State.jump_status (t : Word) : (s.jump t).status = s.status := rfl
@[simp] theorem State.jump_errAddr (t : Word) : (s.jump t).errAddr = s.errAddr := rfl
@[simp] theorem State.jump_errWord (t : Word) : (s.jump t).errWord = s.errWord := rfl
@[simp] theorem State.jump_waitX (t : Word) : (s.jump t).waitX = s.waitX := rfl
@[simp] theorem State.jump_cfg (t : Word) : (s.jump t).cfg = s.cfg := rfl
@[simp] theorem State.jump_loadError (t : Word) : (s.jump t).loadError = s.loadError := rfl
@[simp] theorem State.jump_schedule (t : Word) : (s.jump t).schedule = s.schedule := rfl
@[simp] theorem State.jump_draws (t : Word) : (s.jump t).draws = s.draws := rfl

/-! ### `drop` -/

@[simp] theorem State.drop_v : (s.drop).v = s.v := rfl
@[simp] theorem State.drop_pc : (s.drop).pc = s.pc := rfl
@[simp] theorem State.drop_i : (s.drop).i = s.i := rfl
@[simp] theorem State.drop_sp : (s.drop).sp = s.sp + 2#16 := rfl
@[simp] theorem State.drop_dt : (s.drop).dt = s.dt := rfl
@[simp] theorem State.drop_st : (s.drop).st = s.st := rfl
@[simp] theorem State.drop_mem : (s.drop).mem = s.mem := rfl
@[simp] theorem State.drop_fb : (s.drop).fb = s.fb := rfl
@[simp] theorem State.drop_redraw : (s.drop).redraw = s.redraw := rfl
@[simp] theorem State.drop_status : (s.drop).status = s.status := rfl
@[simp] theorem State.drop_errAddr : (s.drop).errAddr = s.errAddr := rfl
@[simp] theorem State.drop_errWord : (s.drop).errWord = s.errWord := rfl
@[simp] theorem State.drop_waitX : (s.drop).waitX = s.waitX := rfl
@[simp] theorem State.drop_cfg : (s.drop).cfg = s.cfg := rfl
@[simp] theorem State.drop_loadError : (s.drop).loadError = s.loadError := rfl
@[simp] theorem State.drop_schedule : (s.drop).schedule = s.schedule := rfl
@[simp] theorem State.drop_draws : (s.drop).draws = s.draws := rfl

/-! ### `drawNext` -/

@[simp] theorem State.drawNext_v : (s.drawNext).v = s.v := rfl
@[simp] theorem State.drawNext_pc : (s.drawNext).pc = s.pc := rfl
@[simp] theorem State.drawNext_i : (s.drawNext).i = s.i := rfl
@[simp] theorem State.drawNext_sp : (s.drawNext).sp = s.sp := rfl
@[simp] theorem State.drawNext_dt : (s.drawNext).dt = s.dt := rfl
@[simp] theorem State.drawNext_st : (s.drawNext).st = s.st := rfl
@[simp] theorem State.drawNext_mem : (s.drawNext).mem = s.mem := rfl
@[simp] theorem State.drawNext_fb : (s.drawNext).fb = s.fb := rfl
@[simp] theorem State.drawNext_redraw : (s.drawNext).redraw = s.redraw := rfl
@[simp] theorem State.drawNext_status : (s.drawNext).status = s.status := rfl
@[simp] theorem State.drawNext_errAddr : (s.drawNext).errAddr = s.errAddr := rfl
@[simp] theorem State.drawNext_errWord : (s.drawNext).errWord = s.errWord := rfl
@[simp] theorem State.drawNext_waitX : (s.drawNext).waitX = s.waitX := rfl
@[simp] theorem State.drawNext_cfg : (s.drawNext).cfg = s.cfg := rfl
@[simp] theorem State.drawNext_loadError : (s.drawNext).loadError = s.loadError := rfl
@[simp] theorem State.drawNext_schedule : (s.drawNext).schedule = s.schedule := rfl
@[simp] theorem State.drawNext_draws : (s.drawNext).draws = s.draws + 1 := rfl

/-! ### `raiseDecodeError` -/

@[simp] theorem State.raiseDecodeError_v (a w : Word) : (s.raiseDecodeError a w).v = s.v := rfl
@[simp] theorem State.raiseDecodeError_pc (a w : Word) : (s.raiseDecodeError a w).pc = s.pc := rfl
@[simp] theorem State.raiseDecodeError_i (a w : Word) : (s.raiseDecodeError a w).i = s.i := rfl
@[simp] theorem State.raiseDecodeError_sp (a w : Word) : (s.raiseDecodeError a w).sp = s.sp := rfl
@[simp] theorem State.raiseDecodeError_dt (a w : Word) : (s.raiseDecodeError a w).dt = s.dt := rfl
@[simp] theorem State.raiseDecodeError_st (a w : Word) : (s.raiseDecodeError a w).st = s.st := rfl
@[simp] theorem State.raiseDecodeError_mem (a w : Word) : (s.raiseDecodeError a w).mem = s.mem := rfl
@[simp] theorem State.raiseDecodeError_fb (a w : Word) : (s.raiseDecodeError a w).fb = s.fb := rfl
@[simp] theorem State.raiseDecodeError_redraw (a w : Word) : (s.raiseDecodeError a w).redraw = s.redraw := rfl
@[simp] theorem State.raiseDecodeError_status (a w : Word) : (s.raiseDecodeError a w).status = .haltDecode := rfl
@[simp] theorem State.raiseDecodeError_errAddr (a w : Word) : (s.raiseDecodeError a w).errAddr = a := rfl
@[simp] theorem State.raiseDecodeError_errWord (a w : Word) : (s.raiseDecodeError a w).errWord = w := rfl
@[simp] theorem State.raiseDecodeError_waitX (a w : Word) : (s.raiseDecodeError a w).waitX = s.waitX := rfl
@[simp] theorem State.raiseDecodeError_cfg (a w : Word) : (s.raiseDecodeError a w).cfg = s.cfg := rfl
@[simp] theorem State.raiseDecodeError_loadError (a w : Word) : (s.raiseDecodeError a w).loadError = s.loadError := rfl
@[simp] theorem State.raiseDecodeError_schedule (a w : Word) : (s.raiseDecodeError a w).schedule = s.schedule := rfl
@[simp] theorem State.raiseDecodeError_draws (a w : Word) : (s.raiseDecodeError a w).draws = s.draws := rfl

/-! ### `haltSelfJump` -/

@[simp] theorem State.haltSelfJump_v : (s.haltSelfJump).v = s.v := rfl
@[simp] theorem State.haltSelfJump_pc : (s.haltSelfJump).pc = s.pc := rfl
@[simp] theorem State.haltSelfJump_i : (s.haltSelfJump).i = s.i := rfl
@[simp] theorem State.haltSelfJump_sp : (s.haltSelfJump).sp = s.sp := rfl
@[simp] theorem State.haltSelfJump_dt : (s.haltSelfJump).dt = s.dt := rfl
@[simp] theorem State.haltSelfJump_st : (s.haltSelfJump).st = s.st := rfl
@[simp] theorem State.haltSelfJump_mem : (s.haltSelfJump).mem = s.mem := rfl
@[simp] theorem State.haltSelfJump_fb : (s.haltSelfJump).fb = s.fb := rfl
@[simp] theorem State.haltSelfJump_redraw : (s.haltSelfJump).redraw = true := rfl
@[simp] theorem State.haltSelfJump_status : (s.haltSelfJump).status = .haltSelfJump := rfl
@[simp] theorem State.haltSelfJump_errAddr : (s.haltSelfJump).errAddr = s.errAddr := rfl
@[simp] theorem State.haltSelfJump_errWord : (s.haltSelfJump).errWord = s.errWord := rfl
@[simp] theorem State.haltSelfJump_waitX : (s.haltSelfJump).waitX = s.waitX := rfl
@[simp] theorem State.haltSelfJump_cfg : (s.haltSelfJump).cfg = s.cfg := rfl
@[simp] theorem State.haltSelfJump_loadError : (s.haltSelfJump).loadError = s.loadError := rfl
@[simp] theorem State.haltSelfJump_schedule : (s.haltSelfJump).schedule = s.schedule := rfl
@[simp] theorem State.haltSelfJump_draws : (s.haltSelfJump).draws = s.draws := rfl

/-! ### `tick` -/

@[simp] theorem State.tick_v : (s.tick).v = s.v := rfl
@[simp] theorem State.tick_pc : (s.tick).pc = s.pc := rfl
@[simp] theorem State.tick_i : (s.tick).i = s.i := rfl
@[simp] theorem State.tick_sp : (s.tick).sp = s.sp := rfl
@[simp] theorem State.tick_dt : (s.tick).dt = countDown s.dt := rfl
@[simp] theorem State.tick_st : (s.tick).st = countDown s.st := rfl
@[simp] theorem State.tick_mem : (s.tick).mem = s.mem := rfl
@[simp] theorem State.tick_fb : (s.tick).fb = s.fb := rfl
@[simp] theorem State.tick_redraw : (s.tick).redraw = true := rfl
@[simp] theorem State.tick_status : (s.tick).status = s.status := rfl
@[simp] theorem State.tick_errAddr : (s.tick).errAddr = s.errAddr := rfl
@[simp] theorem State.tick_errWord : (s.tick).errWord = s.errWord := rfl
@[simp] theorem State.tick_waitX : (s.tick).waitX = s.waitX := rfl
@[simp] theorem State.tick_cfg : (s.tick).cfg = s.cfg := rfl
@[simp] theorem State.tick_loadError : (s.tick).loadError = s.loadError := rfl
@[simp] theorem State.tick_schedule : (s.tick).schedule = s.schedule := rfl
@[simp] theorem State.tick_draws : (s.tick).draws = s.draws := rfl

/-! ### `popMove` -/

@[simp] theorem State.popMove_v : (s.popMove).v = s.v := rfl
@[simp] theorem State.popMove_pc : (s.popMove).pc = s.pc := rfl
@[simp] theorem State.popMove_i : (s.popMove).i = s.i := rfl
@[simp] theorem State.popMove_sp : (s.popMove).sp = s.sp := rfl
@[simp] theorem State.popMove_dt : (s.popMove).dt = s.dt := rfl
@[simp] theorem State.popMove_st : (s.popMove).st = s.st := rfl
@[simp] theorem State.popMove_mem : (s.popMove).mem = s.mem := rfl
@[simp] theorem State.popMove_fb : (s.popMove).fb = s.fb := rfl
@[simp] theorem State.popMove_redraw : (s.popMove).redraw = s.redraw := rfl
@[simp] theorem State.popMove_status : (s.popMove).status = s.status := rfl
@[simp] theorem State.popMove_errAddr : (s.popMove).errAddr = s.errAddr := rfl
@[simp] theorem State.popMove_errWord : (s.popMove).errWord = s.errWord := rfl
@[simp] theorem State.popMove_waitX : (s.popMove).waitX = s.waitX := rfl
@[simp] theorem State.popMove_cfg : (s.popMove).cfg = s.cfg := rfl
@[simp] theorem State.popMove_loadError : (s.popMove).loadError = s.loadError := rfl
@[simp] theorem State.popMove_schedule : (s.popMove).schedule = s.schedule.tail := rfl
@[simp] theorem State.popMove_draws : (s.popMove).draws = s.draws := rfl

end

end Sys2Proof.Machine
end

