-- ==== Sys2Proof/Laws/Memory.lean ====
section
/-! SUPPORT. What the memory and register operations do, said once: a read after a write, what a write leaves alone, and
that every operation keeps the canonical form of memory. -/

namespace Sys2Proof.Machine

/-! ### The list of bytes -/

theorem Memory.get_erase_other (m : Memory) {a k : Nat} (h : k ≠ a) :
    Memory.get (Memory.erase m a) k = Memory.get m k := by
  induction m with
  | nil => rfl
  | cons c m ih =>
    obtain ⟨j, b⟩ := c
    unfold Memory.erase at ih ⊢
    by_cases hj : j = a
    · subst hj; simpa [Memory.get, Ne.symm h] using ih
    · simp [hj, Memory.get, ih]

theorem Memory.get_erase_self (m : Memory) (a : Nat) : Memory.get (Memory.erase m a) a = unlisted a := by
  induction m with
  | nil => rfl
  | cons c m ih =>
    obtain ⟨j, b⟩ := c
    unfold Memory.erase at ih ⊢
    by_cases hj : j = a
    · subst hj; simpa using ih
    · simp [hj, Memory.get, ih]

theorem Memory.get_insertCell_other (m : Memory) {a k : Nat} (b : Byte) (h : k ≠ a) :
    Memory.get (Memory.insertCell a b m) k = Memory.get m k := by
  induction m with
  | nil => simp [Memory.insertCell, Memory.get, Ne.symm h]
  | cons c m ih =>
    obtain ⟨j, d⟩ := c
    by_cases hj : a < j
    · simp [Memory.insertCell, hj, Memory.get, Ne.symm h]
    · simp [Memory.insertCell, hj, Memory.get, ih]

theorem Memory.get_insertCell_self {m : Memory} {a : Nat} (b : Byte) (h : ∀ c ∈ m, c.1 ≠ a) :
    Memory.get (Memory.insertCell a b m) a = b := by
  induction m with
  | nil => simp [Memory.insertCell, Memory.get]
  | cons c m ih =>
    obtain ⟨j, d⟩ := c
    have hja : j ≠ a := h _ List.mem_cons_self
    have ih := ih fun c hc => h c (List.mem_cons_of_mem _ hc)
    by_cases hj : a < j
    · simp [Memory.insertCell, hj, Memory.get]
    · simp [Memory.insertCell, hj, Memory.get, hja, ih]

theorem Memory.erase_ne (m : Memory) (a : Nat) : ∀ c ∈ Memory.erase m a, c.1 ≠ a := by
  intro c hc
  simpa using (List.mem_filter.1 hc).2

@[simp] theorem Memory.get_set_self (m : Memory) (a : Nat) (b : Byte) : Memory.get (Memory.set m a b) a = b := by
  unfold Memory.set
  split
  · rename_i h; rw [Memory.get_erase_self, h]
  · exact Memory.get_insertCell_self b (Memory.erase_ne m a)

theorem Memory.get_set_other (m : Memory) {a k : Nat} (b : Byte) (h : k ≠ a) :
    Memory.get (Memory.set m a b) k = Memory.get m k := by
  unfold Memory.set
  split
  · exact Memory.get_erase_other m h
  · rw [Memory.get_insertCell_other _ b h, Memory.get_erase_other m h]

theorem Memory.wf_iff (m : Memory) : Memory.wf m = true ↔
    m.Pairwise (fun c d => c.1 < d.1) ∧ ∀ c ∈ m, c.1 < memSize ∧ c.2 ≠ unlisted c.1 := by
  simp [Memory.wf]

theorem Memory.wf_nil : Memory.wf [] = true := rfl

theorem Memory.mem_insertCell {m : Memory} {a : Nat} {b : Byte} {c : Host.Cell} :
    c ∈ Memory.insertCell a b m ↔ c = (a, b) ∨ c ∈ m := by
  induction m with
  | nil => simp [Memory.insertCell]
  | cons d m ih =>
    obtain ⟨j, e⟩ := d
    by_cases hj : a < j
    · simp [Memory.insertCell, hj]
    · simp [Memory.insertCell, hj, ih, or_left_comm]

theorem Memory.insertCell_rising {m : Memory} {a : Nat} (b : Byte) (ha : ∀ c ∈ m, c.1 ≠ a)
    (h : m.Pairwise fun c d => c.1 < d.1) : (Memory.insertCell a b m).Pairwise fun c d => c.1 < d.1 := by
  induction m with
  | nil => simp [Memory.insertCell]
  | cons d m ih =>
    obtain ⟨j, e⟩ := d
    obtain ⟨hd, hm⟩ := List.pairwise_cons.1 h
    by_cases hj : a < j
    · simp only [Memory.insertCell, hj, if_true]
      refine List.pairwise_cons.2 ⟨fun c hc => ?_, h⟩
      rcases List.mem_cons.1 hc with rfl | hc
      · exact hj
      · exact lt_trans hj (hd c hc)
    · simp only [Memory.insertCell, hj, if_false]
      have hja : j ≠ a := ha _ List.mem_cons_self
      refine List.pairwise_cons.2 ⟨fun c hc => ?_, ih (fun c hc => ha c (List.mem_cons_of_mem _ hc)) hm⟩
      rcases Memory.mem_insertCell.1 hc with rfl | hc
      · simp only; omega
      · exact hd c hc

/-- Every write keeps the canonical form. -/
theorem Memory.wf_set {m : Memory} {a : Nat} (b : Byte) (ha : a < memSize) (h : Memory.wf m = true) :
    Memory.wf (Memory.set m a b) = true := by
  rw [Memory.wf_iff] at h ⊢
  obtain ⟨hp, hall⟩ := h
  have hp' : (Memory.erase m a).Pairwise fun c d => c.1 < d.1 := hp.filter _
  have hall' : ∀ c ∈ Memory.erase m a, c.1 < memSize ∧ c.2 ≠ unlisted c.1 := fun c hc =>
    hall c (List.mem_filter.1 hc).1
  unfold Memory.set
  split
  · exact ⟨hp', hall'⟩
  · rename_i hb
    refine ⟨Memory.insertCell_rising b (Memory.erase_ne m a) hp', fun c hc => ?_⟩
    rcases Memory.mem_insertCell.1 hc with rfl | hc
    · exact ⟨ha, hb⟩
    · exact hall' c hc

/-! ### Bytes of the state -/

section
variable (s : State)

theorem State.readByte_writeByte_self (a : Nat) (b : Byte) : (s.writeByte a b).readByte a = b := by
  simp [State.readByte]

theorem State.readByte_writeByte_same {a k : Nat} (b : Byte) (h : k % memSize = a % memSize) :
    (s.writeByte a b).readByte k = b := by
  simp [State.readByte, h]

theorem State.readByte_writeByte_other {a k : Nat} (b : Byte) (h : k % memSize ≠ a % memSize) :
    (s.writeByte a b).readByte k = s.readByte k := by
  simp only [State.readByte, State.writeByte_mem]
  exact Memory.get_set_other _ b h

theorem State.wf_writeByte (a : Nat) (b : Byte) (h : Memory.wf s.mem = true) :
    Memory.wf (s.writeByte a b).mem = true :=
  Memory.wf_set b (Nat.mod_lt _ (by decide)) h

/-- An address and the same address one memory size on are the same byte (R50). -/
theorem State.readByte_mod (a : Nat) : s.readByte (a % memSize) = s.readByte a := by
  simp [State.readByte]

/-- Reading memory depends on `mem` alone. -/
theorem State.readByte_congr {s t : State} (h : t.mem = s.mem) (a : Nat) : t.readByte a = s.readByte a := by
  simp [State.readByte, h]

theorem State.fetchWord_congr {s t : State} (hm : t.mem = s.mem) (hp : t.pc = s.pc) : t.fetchWord = s.fetchWord := by
  simp [State.fetchWord, State.readWord, State.readByte, hm, hp]

/-! ### Registers -/

@[simp] theorem State.getV_setV_self (x : Nibble) (b : Reg) : (s.setV x b).getV x = b := by
  simp [State.getV]

theorem State.getV_setV_other {x r : Nibble} (b : Reg) (h : r ≠ x) : (s.setV x b).getV r = s.getV r := by
  have hne : x.toNat ≠ r.toNat := fun e => h (BitVec.eq_of_toNat_eq e.symm)
  simp [State.getV, hne]

theorem State.getV_setV (x r : Nibble) (b : Reg) : (s.setV x b).getV r = if r = x then b else s.getV r := by
  split
  · subst_vars; exact s.getV_setV_self _ b
  · exact s.getV_setV_other b ‹_›

/-- Reading a register depends on `v` alone. -/
theorem State.getV_congr {s t : State} (h : t.v = s.v) (r : Nibble) : t.getV r = s.getV r := by
  simp [State.getV, h]

/-! ### Words -/

theorem hiByte_wordOfBytes (hi lo : Byte) : hiByte (wordOfBytes hi lo) = hi := by
  ext i h
  simp only [hiByte, wordOfBytes, BitVec.getElem_extractLsb']
  grind

theorem loByte_wordOfBytes (hi lo : Byte) : loByte (wordOfBytes hi lo) = lo := by
  ext i h
  simp only [loByte, wordOfBytes, BitVec.getElem_extractLsb']
  grind

theorem wordOfBytes_hiByte_loByte (w : Word) : wordOfBytes (hiByte w) (loByte w) = w := by
  ext i h
  simp only [hiByte, loByte, wordOfBytes]
  grind

/-- A word written is the word read back (R12, R53). -/
theorem State.readWord_writeWord (a : Nat) (w : Word) : (s.writeWord a w).readWord a = w := by
  have h : a % memSize ≠ (a + 1) % memSize := by simp only [memSize]; omega
  rw [State.readWord, State.writeWord, State.readByte_writeByte_self,
    State.readByte_writeByte_other _ _ h, State.readByte_writeByte_self, wordOfBytes_hiByte_loByte]

end

end Sys2Proof.Machine
end

