-- ==== Sys2Proof/Laws/Ops.lean ====
section
/-! SUPPORT. What each shared operation that is not one record update can do, said once: which fields it can change
(`_only`, and one simp lemma per field kept), and what it makes of the rest. -/

namespace Sys2Proof.Machine

section
variable (s : State)

/-! ### Which fields an operation can change -/

theorem State.writeBytes_only (a : Nat) (bs : List Byte) :
    s.writeBytes a bs = { s with mem := (s.writeBytes a bs).mem } := by
  induction bs generalizing s a with
  | nil => rfl
  | cons b bs ih => rw [State.writeBytes, ih]; rfl

theorem State.storeRegs_only (n : Nat) : s.storeRegs n = { s with mem := (s.storeRegs n).mem } := by
  induction n with
  | zero => rfl
  | succ n ih => rw [State.storeRegs, ih]; rfl

theorem State.loadRegs_only (n : Nat) : s.loadRegs n = { s with v := (s.loadRegs n).v } := by
  induction n with
  | zero => rfl
  | succ n ih => rw [State.loadRegs, ih]; rfl

theorem State.pixelXor_only (y x : Nat) :
    s.pixelXor y x = { s with v := (s.pixelXor y x).v, fb := (s.pixelXor y x).fb } := by
  unfold State.pixelXor; split <;> rfl

theorem State.drawCols_only (b : Byte) (y x0 c n : Nat) :
    s.drawCols b y x0 c n = { s with v := (s.drawCols b y x0 c n).v, fb := (s.drawCols b y x0 c n).fb } := by
  induction n generalizing s c with
  | zero => rfl
  | succ n ih =>
    unfold State.drawCols
    split
    · split
      · rw [ih, State.pixelXor_only]
      · exact ih _ _
    · rfl

theorem State.drawRows_only (x0 y0 r n : Nat) :
    s.drawRows x0 y0 r n = { s with v := (s.drawRows x0 y0 r n).v, fb := (s.drawRows x0 y0 r n).fb } := by
  induction n generalizing s r with
  | zero => rfl
  | succ n ih =>
    unfold State.drawRows
    split
    · rw [ih, State.drawCols_only]
    · rfl

/-! ### `writeWord`: the fields it keeps -/

@[simp] theorem State.writeWord_v (a : Nat) (w : Word) : (s.writeWord a w).v = s.v := rfl
@[simp] theorem State.writeWord_pc (a : Nat) (w : Word) : (s.writeWord a w).pc = s.pc := rfl
@[simp] theorem State.writeWord_i (a : Nat) (w : Word) : (s.writeWord a w).i = s.i := rfl
@[simp] theorem State.writeWord_sp (a : Nat) (w : Word) : (s.writeWord a w).sp = s.sp := rfl
@[simp] theorem State.writeWord_dt (a : Nat) (w : Word) : (s.writeWord a w).dt = s.dt := rfl
@[simp] theorem State.writeWord_st (a : Nat) (w : Word) : (s.writeWord a w).st = s.st := rfl
@[simp] theorem State.writeWord_fb (a : Nat) (w : Word) : (s.writeWord a w).fb = s.fb := rfl
@[simp] theorem State.writeWord_redraw (a : Nat) (w : Word) : (s.writeWord a w).redraw = s.redraw := rfl
@[simp] theorem State.writeWord_status (a : Nat) (w : Word) : (s.writeWord a w).status = s.status := rfl
@[simp] theorem State.writeWord_errAddr (a : Nat) (w : Word) : (s.writeWord a w).errAddr = s.errAddr := rfl
@[simp] theorem State.writeWord_errWord (a : Nat) (w : Word) : (s.writeWord a w).errWord = s.errWord := rfl
@[simp] theorem State.writeWord_waitX (a : Nat) (w : Word) : (s.writeWord a w).waitX = s.waitX := rfl
@[simp] theorem State.writeWord_cfg (a : Nat) (w : Word) : (s.writeWord a w).cfg = s.cfg := rfl
@[simp] theorem State.writeWord_loadError (a : Nat) (w : Word) : (s.writeWord a w).loadError = s.loadError := rfl
@[simp] theorem State.writeWord_schedule (a : Nat) (w : Word) : (s.writeWord a w).schedule = s.schedule := rfl
@[simp] theorem State.writeWord_draws (a : Nat) (w : Word) : (s.writeWord a w).draws = s.draws := rfl

/-! ### `push`: the fields it keeps -/

@[simp] theorem State.push_v (w : Word) : (s.push w).v = s.v := rfl
@[simp] theorem State.push_pc (w : Word) : (s.push w).pc = s.pc := rfl
@[simp] theorem State.push_i (w : Word) : (s.push w).i = s.i := rfl
@[simp] theorem State.push_dt (w : Word) : (s.push w).dt = s.dt := rfl
@[simp] theorem State.push_st (w : Word) : (s.push w).st = s.st := rfl
@[simp] theorem State.push_fb (w : Word) : (s.push w).fb = s.fb := rfl
@[simp] theorem State.push_redraw (w : Word) : (s.push w).redraw = s.redraw := rfl
@[simp] theorem State.push_status (w : Word) : (s.push w).status = s.status := rfl
@[simp] theorem State.push_errAddr (w : Word) : (s.push w).errAddr = s.errAddr := rfl
@[simp] theorem State.push_errWord (w : Word) : (s.push w).errWord = s.errWord := rfl
@[simp] theorem State.push_waitX (w : Word) : (s.push w).waitX = s.waitX := rfl
@[simp] theorem State.push_cfg (w : Word) : (s.push w).cfg = s.cfg := rfl
@[simp] theorem State.push_loadError (w : Word) : (s.push w).loadError = s.loadError := rfl
@[simp] theorem State.push_schedule (w : Word) : (s.push w).schedule = s.schedule := rfl
@[simp] theorem State.push_draws (w : Word) : (s.push w).draws = s.draws := rfl

@[simp] theorem State.push_sp (w : Word) : (s.push w).sp = s.sp - 2#16 := rfl

/-! ### `writeBytes`: the fields it keeps -/

@[simp] theorem State.writeBytes_v (a : Nat) (bs : List Byte) : (s.writeBytes a bs).v = s.v := by rw [State.writeBytes_only]
@[simp] theorem State.writeBytes_pc (a : Nat) (bs : List Byte) : (s.writeBytes a bs).pc = s.pc := by rw [State.writeBytes_only]
@[simp] theorem State.writeBytes_i (a : Nat) (bs : List Byte) : (s.writeBytes a bs).i = s.i := by rw [State.writeBytes_only]
@[simp] theorem State.writeBytes_sp (a : Nat) (bs : List Byte) : (s.writeBytes a bs).sp = s.sp := by rw [State.writeBytes_only]
@[simp] theorem State.writeBytes_dt (a : Nat) (bs : List Byte) : (s.writeBytes a bs).dt = s.dt := by rw [State.writeBytes_only]
@[simp] theorem State.writeBytes_st (a : Nat) (bs : List Byte) : (s.writeBytes a bs).st = s.st := by rw [State.writeBytes_only]
@[simp] theorem State.writeBytes_fb (a : Nat) (bs : List Byte) : (s.writeBytes a bs).fb = s.fb := by rw [State.writeBytes_only]
@[simp] theorem State.writeBytes_redraw (a : Nat) (bs : List Byte) : (s.writeBytes a bs).redraw = s.redraw := by rw [State.writeBytes_only]
@[simp] theorem State.writeBytes_status (a : Nat) (bs : List Byte) : (s.writeBytes a bs).status = s.status := by rw [State.writeBytes_only]
@[simp] theorem State.writeBytes_errAddr (a : Nat) (bs : List Byte) : (s.writeBytes a bs).errAddr = s.errAddr := by rw [State.writeBytes_only]
@[simp] theorem State.writeBytes_errWord (a : Nat) (bs : List Byte) : (s.writeBytes a bs).errWord = s.errWord := by rw [State.writeBytes_only]
@[simp] theorem State.writeBytes_waitX (a : Nat) (bs : List Byte) : (s.writeBytes a bs).waitX = s.waitX := by rw [State.writeBytes_only]
@[simp] theorem State.writeBytes_cfg (a : Nat) (bs : List Byte) : (s.writeBytes a bs).cfg = s.cfg := by rw [State.writeBytes_only]
@[simp] theorem State.writeBytes_loadError (a : Nat) (bs : List Byte) : (s.writeBytes a bs).loadError = s.loadError := by rw [State.writeBytes_only]
@[simp] theorem State.writeBytes_schedule (a : Nat) (bs : List Byte) : (s.writeBytes a bs).schedule = s.schedule := by rw [State.writeBytes_only]
@[simp] theorem State.writeBytes_draws (a : Nat) (bs : List Byte) : (s.writeBytes a bs).draws = s.draws := by rw [State.writeBytes_only]

/-! ### `storeRegs`: the fields it keeps -/

@[simp] theorem State.storeRegs_v (n : Nat) : (s.storeRegs n).v = s.v := by rw [State.storeRegs_only]
@[simp] theorem State.storeRegs_pc (n : Nat) : (s.storeRegs n).pc = s.pc := by rw [State.storeRegs_only]
@[simp] theorem State.storeRegs_i (n : Nat) : (s.storeRegs n).i = s.i := by rw [State.storeRegs_only]
@[simp] theorem State.storeRegs_sp (n : Nat) : (s.storeRegs n).sp = s.sp := by rw [State.storeRegs_only]
@[simp] theorem State.storeRegs_dt (n : Nat) : (s.storeRegs n).dt = s.dt := by rw [State.storeRegs_only]
@[simp] theorem State.storeRegs_st (n : Nat) : (s.storeRegs n).st = s.st := by rw [State.storeRegs_only]
@[simp] theorem State.storeRegs_fb (n : Nat) : (s.storeRegs n).fb = s.fb := by rw [State.storeRegs_only]
@[simp] theorem State.storeRegs_redraw (n : Nat) : (s.storeRegs n).redraw = s.redraw := by rw [State.storeRegs_only]
@[simp] theorem State.storeRegs_status (n : Nat) : (s.storeRegs n).status = s.status := by rw [State.storeRegs_only]
@[simp] theorem State.storeRegs_errAddr (n : Nat) : (s.storeRegs n).errAddr = s.errAddr := by rw [State.storeRegs_only]
@[simp] theorem State.storeRegs_errWord (n : Nat) : (s.storeRegs n).errWord = s.errWord := by rw [State.storeRegs_only]
@[simp] theorem State.storeRegs_waitX (n : Nat) : (s.storeRegs n).waitX = s.waitX := by rw [State.storeRegs_only]
@[simp] theorem State.storeRegs_cfg (n : Nat) : (s.storeRegs n).cfg = s.cfg := by rw [State.storeRegs_only]
@[simp] theorem State.storeRegs_loadError (n : Nat) : (s.storeRegs n).loadError = s.loadError := by rw [State.storeRegs_only]
@[simp] theorem State.storeRegs_schedule (n : Nat) : (s.storeRegs n).schedule = s.schedule := by rw [State.storeRegs_only]
@[simp] theorem State.storeRegs_draws (n : Nat) : (s.storeRegs n).draws = s.draws := by rw [State.storeRegs_only]

/-! ### `loadRegs`: the fields it keeps -/

@[simp] theorem State.loadRegs_pc (n : Nat) : (s.loadRegs n).pc = s.pc := by rw [State.loadRegs_only]
@[simp] theorem State.loadRegs_i (n : Nat) : (s.loadRegs n).i = s.i := by rw [State.loadRegs_only]
@[simp] theorem State.loadRegs_sp (n : Nat) : (s.loadRegs n).sp = s.sp := by rw [State.loadRegs_only]
@[simp] theorem State.loadRegs_dt (n : Nat) : (s.loadRegs n).dt = s.dt := by rw [State.loadRegs_only]
@[simp] theorem State.loadRegs_st (n : Nat) : (s.loadRegs n).st = s.st := by rw [State.loadRegs_only]
@[simp] theorem State.loadRegs_mem (n : Nat) : (s.loadRegs n).mem = s.mem := by rw [State.loadRegs_only]
@[simp] theorem State.loadRegs_fb (n : Nat) : (s.loadRegs n).fb = s.fb := by rw [State.loadRegs_only]
@[simp] theorem State.loadRegs_redraw (n : Nat) : (s.loadRegs n).redraw = s.redraw := by rw [State.loadRegs_only]
@[simp] theorem State.loadRegs_status (n : Nat) : (s.loadRegs n).status = s.status := by rw [State.loadRegs_only]
@[simp] theorem State.loadRegs_errAddr (n : Nat) : (s.loadRegs n).errAddr = s.errAddr := by rw [State.loadRegs_only]
@[simp] theorem State.loadRegs_errWord (n : Nat) : (s.loadRegs n).errWord = s.errWord := by rw [State.loadRegs_only]
@[simp] theorem State.loadRegs_waitX (n : Nat) : (s.loadRegs n).waitX = s.waitX := by rw [State.loadRegs_only]
@[simp] theorem State.loadRegs_cfg (n : Nat) : (s.loadRegs n).cfg = s.cfg := by rw [State.loadRegs_only]
@[simp] theorem State.loadRegs_loadError (n : Nat) : (s.loadRegs n).loadError = s.loadError := by rw [State.loadRegs_only]
@[simp] theorem State.loadRegs_schedule (n : Nat) : (s.loadRegs n).schedule = s.schedule := by rw [State.loadRegs_only]
@[simp] theorem State.loadRegs_draws (n : Nat) : (s.loadRegs n).draws = s.draws := by rw [State.loadRegs_only]

/-! ### `pixelXor`: the fields it keeps -/

@[simp] theorem State.pixelXor_pc (y x : Nat) : (s.pixelXor y x).pc = s.pc := by rw [State.pixelXor_only]
@[simp] theorem State.pixelXor_i (y x : Nat) : (s.pixelXor y x).i = s.i := by rw [State.pixelXor_only]
@[simp] theorem State.pixelXor_sp (y x : Nat) : (s.pixelXor y x).sp = s.sp := by rw [State.pixelXor_only]
@[simp] theorem State.pixelXor_dt (y x : Nat) : (s.pixelXor y x).dt = s.dt := by rw [State.pixelXor_only]
@[simp] theorem State.pixelXor_st (y x : Nat) : (s.pixelXor y x).st = s.st := by rw [State.pixelXor_only]
@[simp] theorem State.pixelXor_mem (y x : Nat) : (s.pixelXor y x).mem = s.mem := by rw [State.pixelXor_only]
@[simp] theorem State.pixelXor_redraw (y x : Nat) : (s.pixelXor y x).redraw = s.redraw := by rw [State.pixelXor_only]
@[simp] theorem State.pixelXor_status (y x : Nat) : (s.pixelXor y x).status = s.status := by rw [State.pixelXor_only]
@[simp] theorem State.pixelXor_errAddr (y x : Nat) : (s.pixelXor y x).errAddr = s.errAddr := by rw [State.pixelXor_only]
@[simp] theorem State.pixelXor_errWord (y x : Nat) : (s.pixelXor y x).errWord = s.errWord := by rw [State.pixelXor_only]
@[simp] theorem State.pixelXor_waitX (y x : Nat) : (s.pixelXor y x).waitX = s.waitX := by rw [State.pixelXor_only]
@[simp] theorem State.pixelXor_cfg (y x : Nat) : (s.pixelXor y x).cfg = s.cfg := by rw [State.pixelXor_only]
@[simp] theorem State.pixelXor_loadError (y x : Nat) : (s.pixelXor y x).loadError = s.loadError := by rw [State.pixelXor_only]
@[simp] theorem State.pixelXor_schedule (y x : Nat) : (s.pixelXor y x).schedule = s.schedule := by rw [State.pixelXor_only]
@[simp] theorem State.pixelXor_draws (y x : Nat) : (s.pixelXor y x).draws = s.draws := by rw [State.pixelXor_only]

/-! ### `drawCols`: the fields it keeps -/

@[simp] theorem State.drawCols_pc (b : Byte) (y x0 c n : Nat) : (s.drawCols b y x0 c n).pc = s.pc := by rw [State.drawCols_only]
@[simp] theorem State.drawCols_i (b : Byte) (y x0 c n : Nat) : (s.drawCols b y x0 c n).i = s.i := by rw [State.drawCols_only]
@[simp] theorem State.drawCols_sp (b : Byte) (y x0 c n : Nat) : (s.drawCols b y x0 c n).sp = s.sp := by rw [State.drawCols_only]
@[simp] theorem State.drawCols_dt (b : Byte) (y x0 c n : Nat) : (s.drawCols b y x0 c n).dt = s.dt := by rw [State.drawCols_only]
@[simp] theorem State.drawCols_st (b : Byte) (y x0 c n : Nat) : (s.drawCols b y x0 c n).st = s.st := by rw [State.drawCols_only]
@[simp] theorem State.drawCols_mem (b : Byte) (y x0 c n : Nat) : (s.drawCols b y x0 c n).mem = s.mem := by rw [State.drawCols_only]
@[simp] theorem State.drawCols_redraw (b : Byte) (y x0 c n : Nat) : (s.drawCols b y x0 c n).redraw = s.redraw := by rw [State.drawCols_only]
@[simp] theorem State.drawCols_status (b : Byte) (y x0 c n : Nat) : (s.drawCols b y x0 c n).status = s.status := by rw [State.drawCols_only]
@[simp] theorem State.drawCols_errAddr (b : Byte) (y x0 c n : Nat) : (s.drawCols b y x0 c n).errAddr = s.errAddr := by rw [State.drawCols_only]
@[simp] theorem State.drawCols_errWord (b : Byte) (y x0 c n : Nat) : (s.drawCols b y x0 c n).errWord = s.errWord := by rw [State.drawCols_only]
@[simp] theorem State.drawCols_waitX (b : Byte) (y x0 c n : Nat) : (s.drawCols b y x0 c n).waitX = s.waitX := by rw [State.drawCols_only]
@[simp] theorem State.drawCols_cfg (b : Byte) (y x0 c n : Nat) : (s.drawCols b y x0 c n).cfg = s.cfg := by rw [State.drawCols_only]
@[simp] theorem State.drawCols_loadError (b : Byte) (y x0 c n : Nat) : (s.drawCols b y x0 c n).loadError = s.loadError := by rw [State.drawCols_only]
@[simp] theorem State.drawCols_schedule (b : Byte) (y x0 c n : Nat) : (s.drawCols b y x0 c n).schedule = s.schedule := by rw [State.drawCols_only]
@[simp] theorem State.drawCols_draws (b : Byte) (y x0 c n : Nat) : (s.drawCols b y x0 c n).draws = s.draws := by rw [State.drawCols_only]

/-! ### `drawRows`: the fields it keeps -/

@[simp] theorem State.drawRows_pc (x0 y0 r n : Nat) : (s.drawRows x0 y0 r n).pc = s.pc := by rw [State.drawRows_only]
@[simp] theorem State.drawRows_i (x0 y0 r n : Nat) : (s.drawRows x0 y0 r n).i = s.i := by rw [State.drawRows_only]
@[simp] theorem State.drawRows_sp (x0 y0 r n : Nat) : (s.drawRows x0 y0 r n).sp = s.sp := by rw [State.drawRows_only]
@[simp] theorem State.drawRows_dt (x0 y0 r n : Nat) : (s.drawRows x0 y0 r n).dt = s.dt := by rw [State.drawRows_only]
@[simp] theorem State.drawRows_st (x0 y0 r n : Nat) : (s.drawRows x0 y0 r n).st = s.st := by rw [State.drawRows_only]
@[simp] theorem State.drawRows_mem (x0 y0 r n : Nat) : (s.drawRows x0 y0 r n).mem = s.mem := by rw [State.drawRows_only]
@[simp] theorem State.drawRows_redraw (x0 y0 r n : Nat) : (s.drawRows x0 y0 r n).redraw = s.redraw := by rw [State.drawRows_only]
@[simp] theorem State.drawRows_status (x0 y0 r n : Nat) : (s.drawRows x0 y0 r n).status = s.status := by rw [State.drawRows_only]
@[simp] theorem State.drawRows_errAddr (x0 y0 r n : Nat) : (s.drawRows x0 y0 r n).errAddr = s.errAddr := by rw [State.drawRows_only]
@[simp] theorem State.drawRows_errWord (x0 y0 r n : Nat) : (s.drawRows x0 y0 r n).errWord = s.errWord := by rw [State.drawRows_only]
@[simp] theorem State.drawRows_waitX (x0 y0 r n : Nat) : (s.drawRows x0 y0 r n).waitX = s.waitX := by rw [State.drawRows_only]
@[simp] theorem State.drawRows_cfg (x0 y0 r n : Nat) : (s.drawRows x0 y0 r n).cfg = s.cfg := by rw [State.drawRows_only]
@[simp] theorem State.drawRows_loadError (x0 y0 r n : Nat) : (s.drawRows x0 y0 r n).loadError = s.loadError := by rw [State.drawRows_only]
@[simp] theorem State.drawRows_schedule (x0 y0 r n : Nat) : (s.drawRows x0 y0 r n).schedule = s.schedule := by rw [State.drawRows_only]
@[simp] theorem State.drawRows_draws (x0 y0 r n : Nat) : (s.drawRows x0 y0 r n).draws = s.draws := by rw [State.drawRows_only]

/-! ### `flagThenResult`: the fields it keeps -/

@[simp] theorem State.flagThenResult_i (x : Nibble) (b : Reg) (f : State → Reg) : (s.flagThenResult x b f).i = s.i := rfl
@[simp] theorem State.flagThenResult_sp (x : Nibble) (b : Reg) (f : State → Reg) : (s.flagThenResult x b f).sp = s.sp := rfl
@[simp] theorem State.flagThenResult_dt (x : Nibble) (b : Reg) (f : State → Reg) : (s.flagThenResult x b f).dt = s.dt := rfl
@[simp] theorem State.flagThenResult_st (x : Nibble) (b : Reg) (f : State → Reg) : (s.flagThenResult x b f).st = s.st := rfl
@[simp] theorem State.flagThenResult_mem (x : Nibble) (b : Reg) (f : State → Reg) : (s.flagThenResult x b f).mem = s.mem := rfl
@[simp] theorem State.flagThenResult_fb (x : Nibble) (b : Reg) (f : State → Reg) : (s.flagThenResult x b f).fb = s.fb := rfl
@[simp] theorem State.flagThenResult_redraw (x : Nibble) (b : Reg) (f : State → Reg) : (s.flagThenResult x b f).redraw = s.redraw := rfl
@[simp] theorem State.flagThenResult_status (x : Nibble) (b : Reg) (f : State → Reg) : (s.flagThenResult x b f).status = s.status := rfl
@[simp] theorem State.flagThenResult_errAddr (x : Nibble) (b : Reg) (f : State → Reg) : (s.flagThenResult x b f).errAddr = s.errAddr := rfl
@[simp] theorem State.flagThenResult_errWord (x : Nibble) (b : Reg) (f : State → Reg) : (s.flagThenResult x b f).errWord = s.errWord := rfl
@[simp] theorem State.flagThenResult_waitX (x : Nibble) (b : Reg) (f : State → Reg) : (s.flagThenResult x b f).waitX = s.waitX := rfl
@[simp] theorem State.flagThenResult_cfg (x : Nibble) (b : Reg) (f : State → Reg) : (s.flagThenResult x b f).cfg = s.cfg := rfl
@[simp] theorem State.flagThenResult_loadError (x : Nibble) (b : Reg) (f : State → Reg) : (s.flagThenResult x b f).loadError = s.loadError := rfl
@[simp] theorem State.flagThenResult_schedule (x : Nibble) (b : Reg) (f : State → Reg) : (s.flagThenResult x b f).schedule = s.schedule := rfl
@[simp] theorem State.flagThenResult_draws (x : Nibble) (b : Reg) (f : State → Reg) : (s.flagThenResult x b f).draws = s.draws := rfl

@[simp] theorem State.flagThenResult_pc (x : Nibble) (b : Reg) (f : State → Reg) :
    (s.flagThenResult x b f).pc = s.pc + 2#16 := rfl

/-- The value in each register after a flag-writing instruction (R121). -/
theorem State.getV_flagThenResult (x r : Nibble) (b : Reg) (f : State → Reg) :
    (s.flagThenResult x b f).getV r =
      if r = x then f (s.setV flagReg b) else if r = flagReg then b else s.getV r := by
  have h : (s.flagThenResult x b f).getV r = ((s.setV flagReg b).setV x (f (s.setV flagReg b))).getV r := rfl
  rw [h, State.getV_setV, State.getV_setV]

/-! ### Bytes after a write of several -/

theorem State.readByte_writeWord_other {a k : Nat} (w : Word) (h0 : k % memSize ≠ a % memSize)
    (h1 : k % memSize ≠ (a + 1) % memSize) : (s.writeWord a w).readByte k = s.readByte k := by
  rw [State.writeWord, State.readByte_writeByte_other _ _ h1, State.readByte_writeByte_other _ _ h0]

theorem State.readByte_writeBytes_other {a k : Nat} (bs : List Byte)
    (h : ∀ j, j < bs.length → k % memSize ≠ (a + j) % memSize) : (s.writeBytes a bs).readByte k = s.readByte k := by
  induction bs generalizing s a with
  | nil => rfl
  | cons b bs ih =>
    have h' : ∀ j, j < bs.length → k % memSize ≠ (a + 1 + j) % memSize := fun j hj => by
      have := h (j + 1) (by simpa using hj)
      rwa [show a + 1 + j = a + (j + 1) by omega]
    rw [State.writeBytes, ih _ h', State.readByte_writeByte_other _ _ (by simpa using h 0 (by simp))]

/-- At most `MEM_SIZE` bytes written from `a` up are the bytes read back. -/
theorem State.readByte_writeBytes_self (a : Nat) (bs : List Byte) (hl : bs.length ≤ memSize) {j : Nat}
    (hj : j < bs.length) : (s.writeBytes a bs).readByte (a + j) = bs[j] := by
  induction bs generalizing s a j with
  | nil => simp at hj
  | cons b bs ih =>
    rw [State.writeBytes]
    cases j with
    | zero =>
      simp only [List.length_cons] at hl
      rw [State.readByte_writeBytes_other, Nat.add_zero, State.readByte_writeByte_self, List.getElem_cons_zero]
      intro i hi
      simp only [memSize] at hl ⊢
      omega
    | succ j =>
      have := ih (s.writeByte a b) (a + 1) (by simp at hl; omega) (j := j) (by simpa using hj)
      rw [List.getElem_cons_succ, ← this]
      congr 1
      omega

theorem State.readByte_storeRegs_other {k n : Nat}
    (h : ∀ j, j < n → k % memSize ≠ s.indexAddr j % memSize) : (s.storeRegs n).readByte k = s.readByte k := by
  induction n with
  | zero => rfl
  | succ n ih =>
    rw [State.storeRegs, State.readByte_writeByte_other _ _ (h n (by omega)), ih fun j hj => h j (by omega)]

/-- The bytes stored by `storeRegs` are the registers (R154). -/
theorem State.readByte_storeRegs_self {n j : Nat} (hn : n ≤ nRegs) (hj : j < n) :
    (s.storeRegs n).readByte (s.indexAddr j) = s.getV (BitVec.ofNat 4 j) := by
  induction n with
  | zero => omega
  | succ n ih =>
    rw [State.storeRegs]
    by_cases e : j = n
    · subst e; exact State.readByte_writeByte_self _ _ _
    · rw [State.readByte_writeByte_other, ih (by omega) (by omega)]
      simp only [State.indexAddr, memSize, nRegs] at *
      omega

/-- The registers loaded by `loadRegs` are the data bytes; the others are kept (R155). -/
theorem State.getV_loadRegs {n : Nat} (hn : n ≤ nRegs) (r : Nibble) :
    (s.loadRegs n).getV r = if r.toNat < n then s.dataByte r.toNat else s.getV r := by
  induction n with
  | zero => simp [State.loadRegs]
  | succ n ih =>
    rw [State.loadRegs, State.getV_setV, ih (by omega)]
    have hn' : (BitVec.ofNat 4 n).toNat = n := by simp [nRegs] at hn ⊢; omega
    by_cases e : r = BitVec.ofNat 4 n
    · subst e; simp [hn']
    · have : r.toNat ≠ n := fun h => e (BitVec.eq_of_toNat_eq (by rw [hn', h]))
      simp only [e, if_false]
      by_cases h : r.toNat < n
      · simp [h, Nat.lt_succ_of_lt h]
      · simp [h, show ¬ r.toNat < n + 1 by omega]

/-! ### The canonical form of memory -/

theorem State.wf_writeWord (a : Nat) (w : Word) (h : Memory.wf s.mem = true) : Memory.wf (s.writeWord a w).mem = true :=
  State.wf_writeByte _ _ _ (State.wf_writeByte _ _ _ h)

theorem State.wf_writeBytes (a : Nat) (bs : List Byte) (h : Memory.wf s.mem = true) :
    Memory.wf (s.writeBytes a bs).mem = true := by
  induction bs generalizing s a with
  | nil => exact h
  | cons b bs ih => exact ih _ _ (State.wf_writeByte _ _ _ h)

theorem State.wf_storeRegs (n : Nat) (h : Memory.wf s.mem = true) : Memory.wf (s.storeRegs n).mem = true := by
  induction n with
  | zero => exact h
  | succ n ih => exact State.wf_writeByte _ _ _ ih

theorem State.wf_push (w : Word) (h : Memory.wf s.mem = true) : Memory.wf (s.push w).mem = true :=
  State.wf_writeWord { s with sp := s.sp - 2#16 } _ _ h

/-! ### The stack -/

/-- What was pushed is at the top (R53). -/
theorem State.top_push (w : Word) : (s.push w).top = w := by
  rw [State.top, State.push_sp]; exact State.readWord_writeWord _ _ _

/-! ### Pixels -/

theorem Framebuffer.pixel_setPixel (fb : Framebuffer) (y x y' x' : Nat) (b : Bool) (hy : y < screenH) (hx : x < screenW) :
    Framebuffer.pixel (Framebuffer.setPixel fb y x b) y' x' =
      if y' = y ∧ x' = x then b else Framebuffer.pixel fb y' x' := by
  unfold Framebuffer.pixel Framebuffer.setPixel
  simp only [hy, hx, and_self, dif_pos]
  by_cases h : y' < screenH ∧ x' < screenW
  · simp only [h, and_self, dif_pos]
    by_cases ey : y' = y
    · subst ey
      by_cases ex : x' = x
      · subst ex; simp
      · simp [ex, Ne.symm ex]
    · simp [ey, Ne.symm ey]
  · have : ¬ (y' = y ∧ x' = x) := by rintro ⟨rfl, rfl⟩; exact h ⟨hy, hx⟩
    simp [h, this]

@[simp] theorem Framebuffer.pixel_blank (y x : Nat) : Framebuffer.pixel Framebuffer.blank y x = false := by
  unfold Framebuffer.pixel Framebuffer.blank; split <;> simp

/-- Two framebuffers with the same pixels are the same. -/
theorem Framebuffer.ext_pixel {fb fb' : Framebuffer}
    (h : ∀ y x, Framebuffer.pixel fb y x = Framebuffer.pixel fb' y x) : fb = fb' := by
  ext y hy x hx
  have := h y x
  simpa [Framebuffer.pixel, hy, hx] using this

/-- A pixel becomes its own complement, the others are kept (R192). -/
theorem State.pixel_pixelXor (y x y' x' : Nat) (hy : y < screenH) (hx : x < screenW) :
    Framebuffer.pixel (s.pixelXor y x).fb y' x' =
      if y' = y ∧ x' = x then !Framebuffer.pixel s.fb y x else Framebuffer.pixel s.fb y' x' := by
  unfold State.pixelXor
  split
  · rename_i h; simp [Framebuffer.pixel_setPixel _ _ _ _ _ _ hy hx, h]
  · rename_i h
    rw [Framebuffer.pixel_setPixel _ _ _ _ _ _ hy hx]
    simp [h]

/-- The pixel rule writes no register but `VF` (R192). -/
theorem State.getV_pixelXor (y x : Nat) (r : Nibble) :
    (s.pixelXor y x).getV r = if r = flagReg ∧ Framebuffer.pixel s.fb y x = true then 0x01#8 else s.getV r := by
  unfold State.pixelXor
  split
  · rename_i h
    rw [State.getV_setV]
    simp only [h, and_true]
    rfl
  · rename_i h
    rw [if_neg fun hc => h hc.2]
    rfl

end

/-! ### The step -/

section
variable {s t : State}

/-- Everything an engine step can do (R88): run the decoded instruction, record an `INVALID` word, or nothing. -/
theorem engineStep_next (h : engineStep s = .next t) :
    (∃ i, s.status = .run ∧ decode s.fetchWord = .named i ∧ exec i s = .next t) ∨
    (∃ why, s.status = .run ∧ decode s.fetchWord = .invalid why ∧ t = s.raiseDecodeError s.pc s.fetchWord) ∨
    (s.status ≠ .run ∧ t = s) := by
  unfold engineStep executeDescriptor describe at h
  split at h
  · rename_i hs
    simp only at h
    split at h
    · rename_i i hi; exact .inl ⟨i, hs, hi, h⟩
    · rename_i why hw; exact .inr (.inl ⟨why, hs, hw, by simpa using h.symm⟩)
  · rename_i hs; exact .inr (.inr ⟨by simp [hs], by simpa using h.symm⟩)
  · rename_i hs; exact .inr (.inr ⟨by simp [hs], by simpa using h.symm⟩)
  · rename_i hs; exact .inr (.inr ⟨by simp [hs], by simpa using h.symm⟩)

/-- Everything a step can do (R226): one move of one agent. -/
theorem step_next (h : step s = .next t) :
    (∃ rom, s.nextMove = .reset rom ∧ t = s.popMove.reboot rom) ∨
    (s.loadError = false ∧
      ((s.nextMove = .engine ∧ engineStep s.popMove = .next t) ∨
       (s.nextMove = .tick ∧ t = s.popMove.tick) ∨
       (∃ k, s.nextMove = .key k ∧ t = s.popMove.offerKey k) ∨
       (s.nextMove = .render ∧ t = s.popMove.consumeRender.2))) := by
  unfold step moveStep at h
  rw [State.popMove_loadError] at h
  cases hm : s.nextMove <;> cases hl : s.loadError <;> simp only [hm, hl] at h
  case engine.false => exact .inr ⟨rfl, .inl ⟨rfl, h⟩⟩
  case tick.false => exact .inr ⟨rfl, .inr (.inl ⟨rfl, (Host.Outcome.next.inj h).symm⟩)⟩
  case key.false k => exact .inr ⟨rfl, .inr (.inr (.inl ⟨k, rfl, (Host.Outcome.next.inj h).symm⟩))⟩
  case render.false => exact .inr ⟨rfl, .inr (.inr (.inr ⟨rfl, (Host.Outcome.next.inj h).symm⟩))⟩
  case reset.false rom => exact .inl ⟨rom, rfl, (Host.Outcome.next.inj h).symm⟩
  case reset.true rom => exact .inl ⟨rom, rfl, (Host.Outcome.next.inj h).symm⟩
  all_goals exact absurd h (by simp)

end

end Sys2Proof.Machine
end

