-- ==== Sys2Proof/Laws/PerInstr.lean ====
section
/-! SUPPORT. Statements made per instruction: one lemma per constructor of Instr. -/

namespace Sys2Proof.Laws.EncodeInRow

/-- The word of an instruction selects its own row of the opcode map (30_encoding.md R74). -/
def Statement (i : Instr) : Prop := i.kind.selects (encode i) = true

/-- A masked word with the row's match value selects the row. -/
theorem of_masked {k : Kind} {w m : Word} (h : w &&& k.row.mask = m) (e : m = k.row.value) : k.selects w = true := by
  rw [Kind.selects, h, e, beq_self_eq_true]

theorem cls (ign : Nibble) : Statement (.cls ign) :=
  of_masked (k := .cls) (formXkk_masked_sub _ _ _) (by decide)
theorem ret (ign : Nibble) : Statement (.ret ign) :=
  of_masked (k := .ret) (formXkk_masked_sub _ _ _) (by decide)
theorem jp (nnn : Addr) : Statement (.jp nnn) :=
  of_masked (k := .jp) (formNnn_masked _ _) (by decide)
theorem call (nnn : Addr) : Statement (.call nnn) :=
  of_masked (k := .call) (formNnn_masked _ _) (by decide)
theorem seImm (x : Nibble) (kk : Byte) : Statement (.seImm x kk) :=
  of_masked (k := .seImm) (formXkk_masked _ _ _) (by decide)
theorem sneImm (x : Nibble) (kk : Byte) : Statement (.sneImm x kk) :=
  of_masked (k := .sneImm) (formXkk_masked _ _ _) (by decide)
theorem seReg (x y : Nibble) (ign : Nibble) : Statement (.seReg x y ign) :=
  of_masked (k := .seReg) (formXyn_masked _ _ _ _) (by decide)
theorem ldImm (x : Nibble) (kk : Byte) : Statement (.ldImm x kk) :=
  of_masked (k := .ldImm) (formXkk_masked _ _ _) (by decide)
theorem addImm (x : Nibble) (kk : Byte) : Statement (.addImm x kk) :=
  of_masked (k := .addImm) (formXkk_masked _ _ _) (by decide)
theorem ldReg (x y : Nibble) : Statement (.ldReg x y) :=
  of_masked (k := .ldReg) (formXyn_masked_sub _ _ _ _) (by decide)
theorem orReg (x y : Nibble) : Statement (.orReg x y) :=
  of_masked (k := .orReg) (formXyn_masked_sub _ _ _ _) (by decide)
theorem andReg (x y : Nibble) : Statement (.andReg x y) :=
  of_masked (k := .andReg) (formXyn_masked_sub _ _ _ _) (by decide)
theorem xorReg (x y : Nibble) : Statement (.xorReg x y) :=
  of_masked (k := .xorReg) (formXyn_masked_sub _ _ _ _) (by decide)
theorem addReg (x y : Nibble) : Statement (.addReg x y) :=
  of_masked (k := .addReg) (formXyn_masked_sub _ _ _ _) (by decide)
theorem sub (x y : Nibble) : Statement (.sub x y) :=
  of_masked (k := .sub) (formXyn_masked_sub _ _ _ _) (by decide)
theorem shr (x y : Nibble) : Statement (.shr x y) :=
  of_masked (k := .shr) (formXyn_masked_sub _ _ _ _) (by decide)
theorem subn (x y : Nibble) : Statement (.subn x y) :=
  of_masked (k := .subn) (formXyn_masked_sub _ _ _ _) (by decide)
theorem shl (x y : Nibble) : Statement (.shl x y) :=
  of_masked (k := .shl) (formXyn_masked_sub _ _ _ _) (by decide)
theorem sneReg (x y : Nibble) (ign : Nibble) : Statement (.sneReg x y ign) :=
  of_masked (k := .sneReg) (formXyn_masked _ _ _ _) (by decide)
theorem ldI (nnn : Addr) : Statement (.ldI nnn) :=
  of_masked (k := .ldI) (formNnn_masked _ _) (by decide)
theorem jpV0 (nnn : Addr) : Statement (.jpV0 nnn) :=
  of_masked (k := .jpV0) (formNnn_masked _ _) (by decide)
theorem rnd (x : Nibble) (kk : Byte) : Statement (.rnd x kk) :=
  of_masked (k := .rnd) (formXkk_masked _ _ _) (by decide)
theorem drw (x y n : Nibble) : Statement (.drw x y n) :=
  of_masked (k := .drw) (formXyn_masked _ _ _ _) (by decide)
theorem skp (x : Nibble) : Statement (.skp x) :=
  of_masked (k := .skp) (formXkk_masked_sub _ _ _) (by decide)
theorem sknp (x : Nibble) : Statement (.sknp x) :=
  of_masked (k := .sknp) (formXkk_masked_sub _ _ _) (by decide)
theorem ldVxDt (x : Nibble) : Statement (.ldVxDt x) :=
  of_masked (k := .ldVxDt) (formXkk_masked_sub _ _ _) (by decide)
theorem ldVxK (x : Nibble) : Statement (.ldVxK x) :=
  of_masked (k := .ldVxK) (formXkk_masked_sub _ _ _) (by decide)
theorem ldDtVx (x : Nibble) : Statement (.ldDtVx x) :=
  of_masked (k := .ldDtVx) (formXkk_masked_sub _ _ _) (by decide)
theorem ldStVx (x : Nibble) : Statement (.ldStVx x) :=
  of_masked (k := .ldStVx) (formXkk_masked_sub _ _ _) (by decide)
theorem addI (x : Nibble) : Statement (.addI x) :=
  of_masked (k := .addI) (formXkk_masked_sub _ _ _) (by decide)
theorem ldF (x : Nibble) : Statement (.ldF x) :=
  of_masked (k := .ldF) (formXkk_masked_sub _ _ _) (by decide)
theorem ldB (x : Nibble) : Statement (.ldB x) :=
  of_masked (k := .ldB) (formXkk_masked_sub _ _ _) (by decide)
theorem ldMemVx (x : Nibble) : Statement (.ldMemVx x) :=
  of_masked (k := .ldMemVx) (formXkk_masked_sub _ _ _) (by decide)
theorem ldVxMem (x : Nibble) : Statement (.ldVxMem x) :=
  of_masked (k := .ldVxMem) (formXkk_masked_sub _ _ _) (by decide)

end Sys2Proof.Laws.EncodeInRow
end

