-- ==== Sys2Proof/Tests/Slice0.lean ====
section
/-! SUPPORT. The model's own tests: expected results are the spec's worked vectors (95_test_vectors.md) or worked by hand from
its rules, and the witnesses of the obligations' hypotheses. -/

namespace Sys2Proof.Tests

open Sys2Proof.Machine

set_option Elab.async false -- one theorem at a time: the checks share one memory limit

/-! ### Well-formedness: an ill-formed term for each check -/

/-- X1: group 0 with low byte 00. -/
theorem test_wf_word_group0 : wordWellFormed 0x0000#16 = false := by decide
/-- X11: group 8 with low nibble 8. -/
theorem test_wf_word_group8 : wordWellFormed 0x8008#16 = false := by decide
/-- X16: group E with low byte 9F. -/
theorem test_wf_word_groupE : wordWellFormed 0xE09F#16 = false := by decide
/-- X19: group F with low byte 90. -/
theorem test_wf_word_groupF : wordWellFormed 0xF090#16 = false := by decide
/-- X3: the ignored nibble of group 0 does not matter. -/
theorem test_wf_word_cls : wordWellFormed 0x01E0#16 = true := by decide
/-- R7: `LOAD_ADDR` below 80. -/
theorem test_wf_config_load_low :
    Config.wellFormed { referenceConfig with loadAddr := 0x004F#16 } = false := by decide
/-- R7: `LOAD_ADDR` at `MEM_SIZE`. -/
theorem test_wf_config_load_high :
    Config.wellFormed { referenceConfig with loadAddr := 0x1000#16 } = false := by decide
/-- R7: `STACK_BASE` below 82. -/
theorem test_wf_config_stack_low :
    Config.wellFormed { referenceConfig with stackBase := 0x0051#16 } = false := by decide
/-- R7: `STACK_BASE` at `LOAD_ADDR`. -/
theorem test_wf_config_stack_high :
    Config.wellFormed { referenceConfig with stackBase := 0x0200#16 } = false := by decide
/-- R7: the reference values meet the constraints. -/
theorem test_wf_config_reference : Config.wellFormed referenceConfig = true := by decide

/-! ### Decoding: one word per constructor, written out from R74 and the vectors X2 to X21 -/

theorem test_decode_cls_x2 : decode 0x00E0#16 = .named (.cls 0) := by decide
theorem test_decode_cls_ignored_x3 : decode 0x01E0#16 = .named (.cls 1) := by decide
theorem test_decode_ret_x4 : decode 0x0FEE#16 = .named (.ret 0xF) := by decide
theorem test_decode_jp_x7 : decode 0x1FFF#16 = .named (.jp 0xFFF) := by decide
theorem test_decode_call : decode 0x2210#16 = .named (.call 0x210) := by decide
theorem test_decode_se_imm : decode 0x3310#16 = .named (.seImm 3 0x10) := by decide
theorem test_decode_sne_imm : decode 0x4A7F#16 = .named (.sneImm 0xA 0x7F) := by decide
theorem test_decode_se_reg_x9 : decode 0x5121#16 = .named (.seReg 1 2 1) := by decide
theorem test_decode_ld_imm : decode 0x6A42#16 = .named (.ldImm 0xA 0x42) := by decide
theorem test_decode_add_imm : decode 0x7220#16 = .named (.addImm 2 0x20) := by decide
theorem test_decode_ld_reg : decode 0x8150#16 = .named (.ldReg 1 5) := by decide
theorem test_decode_or : decode 0x8AB1#16 = .named (.orReg 0xA 0xB) := by decide
theorem test_decode_and : decode 0x8122#16 = .named (.andReg 1 2) := by decide
theorem test_decode_xor : decode 0x8CD3#16 = .named (.xorReg 0xC 0xD) := by decide
theorem test_decode_add_reg : decode 0x8124#16 = .named (.addReg 1 2) := by decide
theorem test_decode_sub : decode 0x8E75#16 = .named (.sub 0xE 7) := by decide
theorem test_decode_shr : decode 0x8316#16 = .named (.shr 3 1) := by decide
theorem test_decode_subn : decode 0x8127#16 = .named (.subn 1 2) := by decide
theorem test_decode_shl_x14 : decode 0x8ABE#16 = .named (.shl 0xA 0xB) := by decide
theorem test_decode_sne_reg_x10 : decode 0x9AB7#16 = .named (.sneReg 0xA 0xB 7) := by decide
theorem test_decode_ld_i : decode 0xA300#16 = .named (.ldI 0x300) := by decide
theorem test_decode_jp_v0 : decode 0xBFFF#16 = .named (.jpV0 0xFFF) := by decide
theorem test_decode_rnd : decode 0xC50F#16 = .named (.rnd 5 0x0F) := by decide
theorem test_decode_drw_x21 : decode 0xD120#16 = .named (.drw 1 2 0) := by decide
theorem test_decode_skp_x15 : decode 0xE09E#16 = .named (.skp 0) := by decide
theorem test_decode_sknp : decode 0xE1A1#16 = .named (.sknp 1) := by decide
theorem test_decode_ld_vx_dt : decode 0xF107#16 = .named (.ldVxDt 1) := by decide
theorem test_decode_ld_vx_k : decode 0xF30A#16 = .named (.ldVxK 3) := by decide
theorem test_decode_ld_dt_vx : decode 0xF115#16 = .named (.ldDtVx 1) := by decide
theorem test_decode_ld_st_vx : decode 0xF218#16 = .named (.ldStVx 2) := by decide
theorem test_decode_add_i : decode 0xF41E#16 = .named (.addI 4) := by decide
theorem test_decode_ld_f : decode 0xF029#16 = .named (.ldF 0) := by decide
theorem test_decode_ld_b : decode 0xFE33#16 = .named (.ldB 0xE) := by decide
theorem test_decode_ld_mem_vx : decode 0xF255#16 = .named (.ldMemVx 2) := by decide
theorem test_decode_ld_vx_mem : decode 0xF165#16 = .named (.ldVxMem 1) := by decide
theorem test_invalid_x5 : decode 0x00E1#16 = .invalid .group0 := by decide
theorem test_invalid_x6 : decode 0x0123#16 = .invalid .group0 := by decide
theorem test_invalid_x12 : decode 0x800D#16 = .invalid .group8 := by decide
theorem test_invalid_x13 : decode 0x800F#16 = .invalid .group8 := by decide
theorem test_invalid_x16 : decode 0xE09F#16 = .invalid .groupE := by decide
theorem test_invalid_x17 : decode 0xF000#16 = .invalid .groupF := by decide
theorem test_invalid_x20 : decode 0xFFFF#16 = .invalid .groupF := by decide
/-- R70: the word's bytes in memory order. -/
theorem test_table_word_ld_imm : decodeTableWord 16 0x6A42 = some (.ldImm 0xA 0x42) := by decide
theorem test_encode_drw : encode (.drw 0xA 0xB 0xC) = 0xDABC#16 := by decide
theorem test_encode_sub : encode (.sub 0xE 7) = 0x8E75#16 := by decide

/-! ### One step on a small state -/

/-- The state after an outcome, if it is a next state. -/
def nextOf {α : Type} : Host.Outcome α Fault Refusal → Option α
  | .next t => some t
  | .fault _ => none
  | .refused _ => none

/-- The reset state with some registers set. -/
def regs (vs : List (Nibble × Reg)) : State := vs.foldl (fun s p => s.setV p.1 p.2) State.reset

/-- What `f` reads after one step that runs the word `w` from `s`. -/
def after {α : Type} (s : State) (w : Nat) (f : State → α) : Option α := (nextOf (step (s.withFetchWord 16 w))).map f

/-- The reset state under other switches. -/
def switched (c : Config) (s : State) : State := { s with cfg := c }

/-- The alternative switches: `SOURCE_ALWAYS_ONE`, `NORMALIZED`, `EXCLUSIVE`, and the self-jump halt on. -/
def altConfig : Config :=
  { referenceConfig with haltOnSelfJump := true, subFlagMode := .sourceAlwaysOne, shlFlagMode := .normalized, drawEdge := .exclusive }

/-- R122: the example. -/
theorem test_ldImm :
    after State.reset 0x6A42 (fun t => (t.getV 0xA, t.pc)) = some (0x42#8, 0x0202#16) := by decide +kernel
/-- A2. -/
theorem test_addImm_no_carry :
    after (regs [(1, 0xFF), (0xF, 0x55)]) 0x7101 (fun t => (t.getV 1, t.vf)) = some (0x00#8, 0x55#8) := by decide +kernel
/-- A3. -/
theorem test_addImm_vf :
    after (regs [(0xF, 0xFF)]) 0x7F01 (fun t => t.vf) = some (0x00#8) := by decide +kernel
/-- A31. -/
theorem test_ldReg :
    after (regs [(5, 0x33)]) 0x8150 (fun t => t.getV 1) = some (0x33#8) := by decide +kernel
/-- A28. -/
theorem test_orReg :
    after (regs [(1, 0x0F), (2, 0xF0), (0xF, 0x77)]) 0x8121 (fun t => (t.getV 1, t.vf)) = some (0xFF#8, 0x77#8) := by decide +kernel
/-- A29. -/
theorem test_andReg :
    after (regs [(1, 0x3C), (2, 0x0F)]) 0x8122 (fun t => t.getV 1) = some (0x0C#8) := by decide +kernel
/-- A30. -/
theorem test_xorReg :
    after (regs [(1, 0x5A)]) 0x8113 (fun t => t.getV 1) = some (0x00#8) := by decide +kernel
/-- A6: `x = F`. -/
theorem test_addReg_x_vf :
    after (regs [(0xF, 0x05), (2, 0xFF)]) 0x8F24 (fun t => t.vf) = some (0x00#8) := by decide +kernel
/-- A7: `y = F`. -/
theorem test_addReg_y_vf :
    after (regs [(1, 0x10), (0xF, 0xF0)]) 0x81F4 (fun t => (t.vf, t.getV 1)) = some (0x01#8, 0x11#8) := by decide +kernel
/-- A11, the default. -/
theorem test_sub_borrow :
    after (regs [(1, 0x05), (2, 0x07)]) 0x8125 (fun t => (t.getV 1, t.vf)) = some (0xFE#8, 0x00#8) := by decide +kernel
/-- A15, the alternative. -/
theorem test_sub_y_vf_alt :
    after (switched altConfig (regs [(1, 0x10), (0xF, 0x20)])) 0x81F5 (fun t => (t.vf, t.getV 1)) = some (0x01#8, 0x0F#8) := by decide +kernel
/-- A18. -/
theorem test_shr_y_ignored :
    after (regs [(1, 0xFF), (3, 0x02)]) 0x8316 (fun t => (t.getV 3, t.vf, t.getV 1)) = some (0x01#8, 0x00#8, 0xFF#8) := by decide +kernel
/-- A19. -/
theorem test_shr_vf :
    after (regs [(0xF, 0x03)]) 0x8F06 (fun t => t.vf) = some (0x00#8) := by decide +kernel
/-- A22. -/
theorem test_subn_x_vf :
    after (regs [(0xF, 0x10), (2, 0x30)]) 0x8F27 (fun t => t.vf) = some (0x2F#8) := by decide +kernel
/-- A23. -/
theorem test_subn_y_vf :
    after (regs [(1, 0x10), (0xF, 0x05)]) 0x81F7 (fun t => (t.vf, t.getV 1)) = some (0x00#8, 0xF0#8) := by decide +kernel
/-- A24, the default. -/
theorem test_shl_raw :
    after (regs [(3, 0xC1)]) 0x830E (fun t => (t.getV 3, t.vf)) = some (0x82#8, 0x80#8) := by decide +kernel
/-- A26, the alternative. -/
theorem test_shl_vf_alt :
    after (switched altConfig (regs [(0xF, 0x80)])) 0x8F0E (fun t => t.vf) = some (0x02#8) := by decide +kernel
/-- B2: an odd target. -/
theorem test_jp :
    after State.reset 0x1201 (fun t => t.pc) = some (0x0201#16) := by decide +kernel
/-- B3: the switch on. -/
theorem test_jp_self_halt :
    after (switched altConfig State.reset) 0x1200 (fun t => (t.status, t.pc, t.redraw)) = some (.haltSelfJump, 0x0200#16, true) := by decide +kernel
/-- B4: a call to itself is no self-jump. -/
theorem test_call_self :
    after (switched altConfig State.reset) 0x2200 (fun t => (t.sp, t.readByte 0x1FC, t.readByte 0x1FD, t.pc, t.status)) = some (0x01FC#16, 0x02#8, 0x02#8, 0x0200#16, .run) := by decide +kernel
/-- B8. -/
theorem test_call_wraps :
    after { State.reset with pc := 0x0300#16, sp := 0#16 } 0x2400 (fun t => (t.sp, t.readByte 0xFFE, t.readByte 0xFFF, t.pc)) = some (0xFFFE#16, 0x03#8, 0x02#8, 0x0400#16) := by decide +kernel
/-- B7. -/
theorem test_ret_empty_stack :
    after State.reset 0x00EE (fun t => (t.sp, t.pc)) = some (0x0200#16, 0x0000#16) := by decide +kernel
/-- B6. -/
theorem test_ret :
    after (({ State.reset with pc := 0x0210#16, sp := 0x01FC#16 }.writeByte 0x1FC 0x02).writeByte 0x1FD 0x06) 0x00EE (fun t => (t.sp, t.pc)) = some (0x01FE#16, 0x0206#16) := by decide +kernel
/-- B9. -/
theorem test_seImm_skips :
    after (regs [(3, 0x10)]) 0x3310 (fun t => t.pc) = some (0x0204#16) := by decide +kernel
/-- B11. -/
theorem test_sneImm_no_skip :
    after (regs [(3, 0x10)]) 0x4310 (fun t => t.pc) = some (0x0202#16) := by decide +kernel
/-- B13. -/
theorem test_seReg_ignored_nibble :
    after { regs [(1, 0x07), (2, 0x07)] with pc := 0x0300#16 } 0x5121 (fun t => t.pc) = some (0x0304#16) := by decide +kernel
/-- B15. -/
theorem test_sneReg_same :
    after { State.reset with pc := 0x0300#16 } 0x9110 (fun t => t.pc) = some (0x0302#16) := by decide +kernel
/-- B16. -/
theorem test_jpV0_past_memory :
    after (regs [(0, 0xFF)]) 0xBFFF (fun t => t.pc) = some (0x10FE#16) := by decide +kernel
/-- M1. -/
theorem test_ldI :
    after State.reset 0xA300 (fun t => t.i) = some (0x0300#16) := by decide +kernel
/-- M2. -/
theorem test_addI :
    after { regs [(4, 0x05), (0xF, 0x99)] with i := 0x0FFE#16 } 0xF41E (fun t => (t.i, t.vf)) = some (0x1003#16, 0x99#8) := by decide +kernel
/-- M3. -/
theorem test_addI_wraps :
    after { regs [(4, 0x01)] with i := 0xFFFF#16 } 0xF41E (fun t => t.i) = some (0x0000#16) := by decide +kernel
/-- M5. -/
theorem test_ldF_low_nibble :
    after (regs [(0, 0x3A)]) 0xF029 (fun t => t.i) = some (0x0032#16) := by decide +kernel
/-- M9: 128 at the top of memory. -/
theorem test_ldB_wraps :
    after { regs [(0, 0x80)] with i := 0x0FFF#16 } 0xF033 (fun t => (t.readByte 0xFFF, t.readByte 0, t.readByte 1)) = some (0x01#8, 0x02#8, 0x08#8) := by decide +kernel
/-- E5. -/
theorem test_ldB_195 :
    after { regs [(0, 0xC3)] with i := 0x0300#16 } 0xF033 (fun t => (t.readByte 0x300, t.readByte 0x301, t.readByte 0x302, t.i)) = some (0x01#8, 0x09#8, 0x05#8, 0x0300#16) := by decide +kernel
/-- M11. -/
theorem test_ldMemVx_wraps :
    after { regs [(0, 1), (1, 2), (2, 3), (3, 4)] with i := 0x0FFE#16 } 0xF355 (fun t => (t.readByte 0xFFE, t.readByte 0xFFF, t.readByte 0, t.readByte 1)) = some (0x01#8, 0x02#8, 0x03#8, 0x04#8) := by decide +kernel
/-- M13. -/
theorem test_ldVxMem_font :
    after State.reset 0xFF65 (fun t => (t.getV 0, t.getV 5, t.getV 6, t.vf)) = some (0xF0#8, 0x20#8, 0x60#8, 0xF0#8) := by decide +kernel
/-- M12. -/
theorem test_ldVxMem :
    after ({ regs [(2, 0x77)] with i := 0x0300#16 }.writeBytes 0x300 [0xAB, 0xCD]) 0xF165 (fun t => (t.getV 0, t.getV 1, t.getV 2)) = some (0xAB#8, 0xCD#8, 0x77#8) := by decide +kernel
/-- The counter moves on. -/
theorem test_rnd_zero_mask :
    after State.reset 0xC500 (fun t => t.draws) = some 1 := by decide +kernel
/-- T11. -/
theorem test_ldVxK :
    after State.reset 0xF30A (fun t => (t.status, t.waitX, t.pc)) = some (.waitKey, 0x3#4, 0x0200#16) := by decide +kernel
/-- T3. -/
theorem test_ldVxDt :
    after { State.reset with dt := 0x2A#8 } 0xF107 (fun t => t.getV 1) = some (0x2A#8) := by decide +kernel
/-- T4. -/
theorem test_ldDtVx :
    after (regs [(1, 0x3C)]) 0xF115 (fun t => t.dt) = some (0x3C#8) := by decide +kernel
/-- T6. -/
theorem test_ldStVx :
    after (regs [(2, 0x05)]) 0xF218 (fun t => (t.st, t.soundActive)) = some (0x05#8, true) := by decide +kernel
/-- D9. -/
theorem test_cls :
    after { regs [(0xF, 0x31)] with fb := Framebuffer.setPixel State.reset.fb 5 9 true } 0x00E0 (fun t => (t.fb, t.redraw, t.vf)) = some (State.reset.fb, true, 0x31#8) := by decide +kernel
/-- A state whose sprite of three full rows is at 0x300. -/
def sprite (vs : List (Nibble × Reg)) : State := { regs vs with i := 0x0300#16 }.writeBytes 0x300 [0xFF, 0xFF, 0xFF]

/-- The set pixels of some rows, as row and column. -/
def setPixels (rows : List Nat) (fb : Framebuffer) : List (Nat × Nat) :=
  rows.flatMap fun y => ((List.range screenW).filter fun x => Framebuffer.pixel fb y x).map fun x => (y, x)

/-- D5: the coordinates are read before VF is cleared. -/
theorem test_drw_vf_coordinates :
    after (sprite [(0xF, 0x0A)]) 0xDFF1 (fun t => (setPixels [9, 10, 11] t.fb, t.vf)) = some ([(10, 10), (10, 11), (10, 12), (10, 13), (10, 14), (10, 15), (10, 16), (10, 17)], 0x00#8) := by decide +kernel
/-- D1 under `EXCLUSIVE`, with the pixel of row 0, column 60 set before: it is cleared, and the collision shows (R192). -/
theorem test_drw_edge_and_collision :
    after { switched altConfig (sprite [(1, 0x3C)]) with fb := Framebuffer.setPixel State.reset.fb 0 60 true } 0xD121 (fun t => (setPixels [0, 1] t.fb, t.vf)) = some ([(0, 61), (0, 62)], 0x01#8) := by decide +kernel
/-- K1. -/
theorem test_skp :
    after State.reset 0xE19E (fun t => t.pc) = some (0x0202#16) := by decide +kernel
/-- K2. -/
theorem test_sknp :
    after State.reset 0xE1A1 (fun t => t.pc) = some (0x0202#16) := by decide +kernel
/-- T8: the drawn byte is ANDed with the mask, whatever byte is drawn (R170). -/
theorem test_rnd_masks (h : Config.randomByte 0 = 0xB7#8) : after State.reset 0xC50F (fun t => t.getV 5) = some 0x07#8 := by
  show some (Config.randomByte 0 &&& 0x0F#8) = some 0x07#8
  rw [h]; decide

/-! ### Halts, the agents and reset -/

/-- X22. -/
theorem test_decode_error_x22 :
    after State.reset 0x8008 (fun t => (t.status, t.errAddr, t.errWord, t.pc, t.redraw)) = some (.haltDecode, 0x0200#16, 0x8008#16, 0x0200#16, false) := by decide +kernel
/-- P5's second step: the font's first word halts a stray return to 0. -/
theorem test_font_word_halts :
    (nextOf (step { State.reset with pc := 0#16 })).map (fun t => (t.status, t.errAddr, t.errWord))
      = some (.haltDecode, 0x0000#16, 0xF090#16) := by decide +kernel
/-- T1: a tick. -/
theorem test_tick : (nextOf (step { State.reset with dt := 2, st := 1, schedule := [.tick] })).map
    (fun t => (t.dt, t.st, t.redraw, t.schedule)) = some (0x01#8, 0x00#8, true, []) := by decide +kernel
/-- E8: a tick on a zero timer leaves it at zero, in a halted status too (R231). -/
theorem test_tick_zero_halted : (nextOf (step { State.reset with status := .haltDecode, schedule := [.tick] })).map
    (fun t => (t.dt, t.st, t.redraw, t.status)) = some (0x00#8, 0x00#8, true, .haltDecode) := by decide +kernel
/-- T12: the key completes the wait. -/
theorem test_key : (nextOf (step { State.reset with status := .waitKey, waitX := 3, schedule := [.key 0x1F] })).map
    (fun t => (t.getV 3, t.status, t.pc)) = some (0x1F#8, .run, 0x0202#16) := by decide +kernel
/-- R233: a key offered while the engine runs is not taken. -/
theorem test_key_not_taken : (nextOf (step { State.reset with schedule := [.key 0x1F] })) = some State.reset := by
  decide +kernel
/-- R235: the consume clears `redraw`. -/
theorem test_render : (nextOf (step { State.reset with redraw := true, schedule := [.render] })).map
    (fun t => t.redraw) = some false := by decide +kernel
/-- R238: without a key a waiting engine has no step. -/
theorem test_wait_no_step : nextOf (step { State.reset with status := .waitKey }) = some { State.reset with status := .waitKey } := by
  decide +kernel
/-- R260 to R263: the boot of the reference configuration with an empty image is the reset state. -/
theorem test_boot_reference : State.boot referenceConfig (some []) = State.reset := by decide +kernel
/-- R263: the image goes to `LOAD_ADDR`. -/
theorem test_boot_rom : (State.boot referenceConfig (some [0x60, 0x05])).fetchWord = 0x6005#16 := by decide +kernel
/-- R264: an unreadable image. -/
theorem test_boot_unreadable : (State.boot referenceConfig none).loadError = true := by decide +kernel
/-- R264: after a load error the core never starts. -/
theorem test_load_error_fault : step { State.reset with loadError := true } = .fault .loadError := rfl
/-- R238: the breakpoint at `PC` pauses the run before its first step. -/
theorem test_breakpoint : runControl [0x0200#16] 5 State.reset = .next State.reset := rfl
/-- R238: the step halts on an `INVALID` word, and says so. -/
theorem test_step_control : (nextOf (stepControl none State.reset)).map (fun t => t.2) = some true := by decide +kernel
/-- R238, R88: the step in which a key comes completes `LD V3, K`. -/
theorem test_step_key : (nextOf (stepControl (some 0x1F#8) { State.reset with status := .waitKey, waitX := 3 })).map
    (fun t => (t.1.getV 3, t.1.status, t.1.pc, t.2)) = some (0x1F#8, .run, 0x0202#16, false) := by decide +kernel
/-- R238: without a key a waiting engine takes no step. -/
theorem test_step_no_key : nextOf (stepControl none { State.reset with status := .waitKey })
    = some ({ State.reset with status := .waitKey }, false) := by decide +kernel
/-- R238: the breakpoint at `PC` pauses the run before the completion of a key read too. -/
theorem test_breakpoint_before_key :
    runControl [0x0200#16] 5 { State.reset with status := .waitKey, schedule := [.key 0x1F] }
      = .next { State.reset with status := .waitKey, schedule := [.key 0x1F] } := rfl
/-- R238: a key that is not taken is no step, so it does not pause at the breakpoint. -/
theorem test_breakpoint_untaken_key :
    nextOf (runControl [0x0200#16] 5 { State.reset with schedule := [.key 0x1F] }) = some State.reset := by decide +kernel
/-- R237: the accessor reads the font's first bytes. -/
theorem test_debug_view : (State.reset.debugView 0 3).mem = [0xF0#8, 0x90#8, 0x90#8] := by decide +kernel

/-! ### Witnesses: the hypotheses of each obligation can be met -/

/-- The reset state with the word `w` at `PC`. -/
def atWord (w : Nat) : State := State.reset.withFetchWord 16 w

/-- A core halted by a decode error at reset, with some moves to come. -/
def halted (ms : List Move) : State := { State.reset with status := .haltDecode, errAddr := 0x0200#16, schedule := ms }

/-- A core waiting at `LD V3, K`, with some moves to come. -/
def waiting (ms : List Move) : State := { atWord 0xF30A with status := .waitKey, waitX := 3, schedule := ms }

theorem witness_EncodeOfDecode : ∃ w i, decode w = .named i := ⟨0x8E75#16, .sub 0xE 7, by decide⟩

theorem witness_StepRunsDecodedInstruction : ∃ s i, State.loadError s = false ∧ s.nextMove = .engine ∧ s.status = .run ∧
    decode s.fetchWord = .named i := ⟨atWord 0x6A42, .ldImm 0xA 0x42, by decide +kernel⟩

/-- The last byte of memory, with `PC` beyond the address space. -/
theorem witness_FetchIsBigEndian : ∃ s : State, s.pc.toNat % 4096 = 4095 := ⟨{ State.reset with pc := 0x1FFF#16 }, by decide⟩

theorem witness_InvalidWordHalts : ∃ s : State, s.loadError = false ∧ s.nextMove = .engine ∧ s.status = .run ∧
    (decode s.fetchWord).kind? = none := ⟨atWord 0x8008, by decide +kernel⟩

theorem witness_StepGoesOn : ∃ s : State, s.loadError = false := ⟨atWord 0x8008, by decide +kernel⟩

theorem witness_HaltIsFinal : ∃ s t : State, s.status.halted = true ∧ (∀ rom, s.nextMove ≠ .reset rom) ∧ step s = .next t :=
  ⟨halted [.tick], _, rfl, (fun _ h => by cases h), rfl⟩

theorem witness_HaltedRunStaysHalted : ∃ (n : Nat) (s t : State), s.status.halted = true ∧
    (∀ rom, Move.reset rom ∉ s.schedule) ∧ steps n s = .next t :=
  ⟨4, halted [.tick, .render, .key 0x05#8], _, rfl, (fun _ h => by simp [halted] at h), rfl⟩

theorem witness_LoadErrorNeverStarts_fault : ∃ (s : State) (f : Fault), step s = .fault f :=
  ⟨{ State.reset with loadError := true, schedule := [.tick] }, _, rfl⟩

theorem witness_LoadErrorNeverStarts_moves : ∃ (s : State) (f : Fault), s.loadError = true ∧
    (∀ rom, s.nextMove ≠ .reset rom) ∧ f = .loadError :=
  ⟨{ State.reset with loadError := true, schedule := [.tick] }, _, rfl, (fun _ h => by cases h), rfl⟩

theorem witness_StepKeepsInvariant : ∃ s t : State, s.Inv ∧ step s = .next t :=
  ⟨waiting [.key 0x1F#8], _, ⟨by decide +kernel, by decide +kernel⟩, rfl⟩

theorem witness_ConfigurationIsConstant : ∃ s t : State, step s = .next t :=
  ⟨{ State.reset with cfg := altConfig, schedule := [.reset none] }, _, rfl⟩

/-- With the switch on and `PC` at 0x1200, `JP 0x200` is no jump to its own address (R101: no reduction). -/
theorem witness_JumpOrSelfJumpHalt_jump : ∃ (nnn : Addr) (s : State),
    s.cfg.haltOnSelfJump = true ∧ ¬(s.cfg.haltOnSelfJump = true ∧ nnn.toNat = s.pc.toNat) :=
  ⟨0x200#12, { State.reset with cfg := altConfig, pc := 0x1200#16 }, by decide⟩

theorem witness_JumpOrSelfJumpHalt_halt : ∃ (nnn : Addr) (s : State),
    s.cfg.haltOnSelfJump = true ∧ nnn.toNat = s.pc.toNat :=
  ⟨0xFFF#12, { State.reset with cfg := altConfig, pc := 0x0FFF#16 }, by decide⟩

/-- The least sum with a carry. -/
theorem witness_AddWithCarry : ∃ (x y : Nibble) (s : State) (a b c : Nat), a = (s.getV x).toNat ∧ b = (s.getV y).toNat ∧
    c = (if 255 < a + b then 1 else 0) ∧ a + b = 256 ∧ x ≠ flagReg :=
  ⟨1, 2, regs [(1, 0xFF), (2, 0x01)], 255, 1, 1, by decide +kernel⟩

/-- The greatest sum without one, `VF` an operand and the destination. -/
theorem witness_AddWithCarry_vf : ∃ (x y : Nibble) (s : State) (a b c : Nat), a = (s.getV x).toNat ∧ b = (s.getV y).toNat ∧
    c = (if 255 < a + b then 1 else 0) ∧ a + b = 254 ∧ x = flagReg ∧ y = flagReg :=
  ⟨0xF, 0xF, regs [(0xF, 0x7F)], 127, 127, 0, by decide +kernel⟩

/-- Equal operands: no borrow. -/
theorem witness_Subtract : ∃ (x y : Nibble) (s : State) (a b c : Nat), a = (s.getV x).toNat ∧ b = (s.getV y).toNat ∧
    c = (if s.cfg.subFlagMode = .sourceAlwaysOne ∨ b ≤ a then 1 else 0) ∧ a = b ∧ x ≠ flagReg :=
  ⟨1, 2, regs [(1, 0x05), (2, 0x05)], 5, 5, 1, by decide +kernel⟩

/-- A borrow, under both values of the switch. -/
theorem witness_Subtract_borrow : ∃ (x y : Nibble) (s u : State) (a b c d : Nat), a = (s.getV x).toNat ∧
    b = (s.getV y).toNat ∧ c = (if s.cfg.subFlagMode = .sourceAlwaysOne ∨ b ≤ a then 1 else 0) ∧ u.v = s.v ∧
    d = (if u.cfg.subFlagMode = .sourceAlwaysOne ∨ b ≤ a then 1 else 0) ∧ c = 0 ∧ d = 1 ∧ x = flagReg :=
  ⟨0xF, 2, regs [(2, 0x01)], switched altConfig (regs [(2, 0x01)]), 0, 1, 0, 1, by decide +kernel⟩

theorem witness_ReverseSubtract : ∃ (x y : Nibble) (s : State) (a b c : Nat), a = (s.getV x).toNat ∧
    b = (s.getV y).toNat ∧ c = (if a ≤ b then 1 else 0) ∧ a = b + 1 ∧ x ≠ flagReg :=
  ⟨1, 0xF, regs [(1, 0x06), (0xF, 0x05)], 6, 5, 0, by decide +kernel⟩

theorem witness_Shifts : ∃ (x : Nibble) (s : State) (a : Nat), a = (s.getV x).toNat ∧ x ≠ flagReg ∧
    s.cfg.shlFlagMode = .normalized := ⟨0xE, switched altConfig (regs [(0xE, 0x81)]), 0x81, by decide +kernel⟩

/-- The last register stored, of all sixteen and of one. -/
theorem witness_BulkStore : ∃ x r z q : Nibble, r.toNat ≤ x.toNat ∧ r = 0xF#4 ∧ q.toNat ≤ z.toNat ∧ z = 0x0#4 :=
  ⟨0xF#4, 0xF#4, 0x0#4, 0x0#4, by decide⟩

/-- The last register loaded, and the first that is not. -/
theorem witness_BulkLoad : ∃ x r q : Nibble, r.toNat ≤ x.toNat ∧ ¬q.toNat ≤ x.toNat ∧ q.toNat = r.toNat + 1 :=
  ⟨0xE#4, 0xE#4, 0xF#4, by decide⟩

theorem witness_StoreThenLoadRestores : ∃ x r : Nibble, r.toNat ≤ x.toNat ∧ r = x ∧ x = 0xF#4 := ⟨0xF#4, 0xF#4, by decide⟩

/-- At the top of memory, with the least `x`. -/
theorem witness_StoreIsFetchedNext : ∃ (x : Nibble) (s : State), 1 ≤ x.toNat ∧ s.i = s.pc + 2#16 :=
  ⟨1, { State.reset with pc := 0x0FFD#16, i := 0x0FFF#16 }, by decide⟩

theorem witness_RandomByteIsMasked : ∃ (kk : Byte) (j : Nat), kk.getLsbD j = false ∧ j = 7 := ⟨0x7F#8, 7, by decide⟩

theorem witness_KeyCompletesOnlyAWait_wait : ∃ (s : State) (k : Byte), s.loadError = false ∧ s.nextMove = .key k ∧
    s.status = .waitKey := ⟨waiting [.key 0x1F#8], 0x1F#8, by decide +kernel⟩

theorem witness_KeyCompletesOnlyAWait_other : ∃ (s : State) (k : Byte), s.loadError = false ∧ s.nextMove = .key k ∧
    s.status ≠ .waitKey := ⟨halted [.key 0x1F#8], 0x1F#8, by decide +kernel⟩

theorem witness_BlockingReadWithTicks : ∃ (n : Nat) (x : Nibble) (k : Byte) (rest : List Move) (s : State),
    s.loadError = false ∧ s.status = .run ∧ decode s.fetchWord = .named (.ldVxK x) ∧
    s.schedule = .engine :: (List.replicate n .tick ++ .key k :: rest) :=
  ⟨2, 3, 0x1F#8, [.render], { atWord 0xF30A with schedule := [.engine, .tick, .tick, .key 0x1F#8, .render] }, by decide +kernel⟩

theorem witness_TickCountsDown : ∃ s : State, s.loadError = false ∧ s.nextMove = .tick := ⟨waiting [.tick], by decide +kernel⟩

theorem witness_TicksAreNotLost : ∃ (n : Nat) (rest : List Move) (s : State), s.loadError = false ∧
    s.schedule = List.replicate n .tick ++ rest := ⟨2, [.engine], waiting [.tick, .tick, .engine], by decide +kernel⟩

theorem witness_TickCommutesWithInstruction : ∃ (i : Instr) (s t : State), i.kind ∉ [Kind.ldVxDt, .ldDtVx, .ldStVx] ∧
    exec i s = .next t := ⟨.addReg 1 2, regs [(1, 0xFF), (2, 0x01)], _, by decide, rfl⟩

theorem witness_DrawIsXorOfSprite_collision : ∃ (x y n : Nibble) (s : State), ∃ py px,
    Framebuffer.pixel s.fb py px = true ∧ drawsAt s (s.getV x) (s.getV y) n py px = true :=
  ⟨1, 2, 1, { sprite [(1, 0x3F), (2, 0x1F)] with fb := Framebuffer.setPixel State.reset.fb 31 63 true }, 31, 63,
    by decide +kernel⟩

theorem witness_DrawIsXorOfSprite_none : ∃ (x y n : Nibble) (s : State), n = 0xF#4 ∧ ¬∃ py px,
    Framebuffer.pixel s.fb py px = true ∧ drawsAt s (s.getV x) (s.getV y) n py px = true :=
  ⟨1, 2, 0xF, sprite [], rfl, fun ⟨py, px, h, _⟩ => by
    have hb : (sprite []).fb = Framebuffer.blank := by decide +kernel
    rw [hb] at h; simp [Framebuffer.pixel, Framebuffer.blank] at h⟩

theorem witness_ExclusiveEdgeIsNeverDrawn : ∃ s : State, s.cfg.drawEdge = .exclusive :=
  ⟨switched altConfig (sprite [(1, 0x3F), (2, 0x1F)]), by decide +kernel⟩

theorem witness_DrawTwiceErases : ∃ x y : Nibble, x ≠ flagReg ∧ y ≠ flagReg := ⟨0xE, 0xE, by decide⟩

theorem witness_RenderConsumes : ∃ s : State, s.loadError = false ∧ s.nextMove = .render ∧ s.redraw = true :=
  ⟨{ waiting [.render] with redraw := true }, by decide +kernel⟩

theorem witness_OnlyFlagWritersChangeVf : ∃ (i : Instr) (s t : State), exec i s = .next t ∧ t.vf ≠ s.vf :=
  ⟨.addReg 1 2, regs [(1, 0xFF), (2, 0x01)], _, rfl, by decide +kernel⟩

/-- `VF` named as the destination, by an instruction that writes no flag. -/
theorem witness_OnlyFlagWritersChangeVf_dest : ∃ (i : Instr) (s t : State), exec i s = .next t ∧ t.vf ≠ s.vf ∧
    i.kind ∉ flagKinds := ⟨.ldImm 0xF 0x07, State.reset, _, rfl, by decide +kernel, by decide⟩

theorem witness_WhoWritesWhat_v : ∃ (i : Instr) (s t : State) (r : Nibble), exec i s = .next t ∧ t.getV r ≠ s.getV r ∧
    r ∉ destRegs i := ⟨.shr 1 0, regs [(1, 0x01)], _, 0xF, rfl, by decide +kernel, by decide⟩
theorem witness_WhoWritesWhat_v_last : ∃ (i : Instr) (s t : State) (r : Nibble), exec i s = .next t ∧ t.getV r ≠ s.getV r ∧
    r = 0xF#4 := ⟨.ldVxMem 0xF, State.reset, _, 0xF, rfl, by decide +kernel, rfl⟩
theorem witness_WhoWritesWhat_redraw : ∃ (i : Instr) (s t : State), exec i s = .next t ∧ t.redraw ≠ s.redraw :=
  ⟨.jp 0x200, switched altConfig State.reset, _, rfl, by decide +kernel⟩
theorem witness_WhoWritesWhat_waitX : ∃ (i : Instr) (s t : State), exec i s = .next t ∧ t.waitX ≠ s.waitX :=
  ⟨.ldVxK 3, State.reset, _, rfl, by decide +kernel⟩
theorem witness_WhoWritesWhat_draws : ∃ (i : Instr) (s t : State), exec i s = .next t ∧ t.draws ≠ s.draws :=
  ⟨.rnd 1 0x0F, State.reset, _, rfl, Nat.one_ne_zero⟩
theorem witness_WhoWritesWhat_i : ∃ (i : Instr) (s t : State), exec i s = .next t ∧ t.i ≠ s.i :=
  ⟨.ldI 0x300, State.reset, _, rfl, by decide +kernel⟩
theorem witness_WhoWritesWhat_sp_mem : ∃ (i : Instr) (s t : State), exec i s = .next t ∧ t.sp ≠ s.sp ∧ t.mem ≠ s.mem :=
  ⟨.call 0x300, State.reset, _, rfl, by decide +kernel, by decide +kernel⟩
theorem witness_WhoWritesWhat_dt : ∃ (i : Instr) (s t : State), exec i s = .next t ∧ t.dt ≠ s.dt :=
  ⟨.ldDtVx 1, regs [(1, 0x3C)], _, rfl, by decide +kernel⟩
theorem witness_WhoWritesWhat_st : ∃ (i : Instr) (s t : State), exec i s = .next t ∧ t.st ≠ s.st :=
  ⟨.ldStVx 1, regs [(1, 0x3C)], _, rfl, by decide +kernel⟩
theorem witness_WhoWritesWhat_fb : ∃ (i : Instr) (s t : State), exec i s = .next t ∧ t.fb ≠ s.fb :=
  ⟨.drw 1 2 1, sprite [], _, rfl, by decide +kernel⟩
theorem witness_WhoWritesWhat_status : ∃ (i : Instr) (s t : State), exec i s = .next t ∧ t.status ≠ s.status :=
  ⟨.jp 0x200, switched altConfig State.reset, _, rfl, by decide +kernel⟩

theorem witness_SoundTimerIsNotRead : ∃ (i : Instr) (s t : State), exec i s = .next t ∧ s.st ≠ t.st :=
  ⟨.ldStVx 1, regs [(1, 0x3C)], _, rfl, by decide +kernel⟩

theorem witness_RedrawIsNotRead : ∃ (i : Instr) (s t : State), exec i s = .next t ∧ s.redraw ≠ t.redraw :=
  ⟨.cls 0, State.reset, _, rfl, by decide +kernel⟩

/-- The longest image that fits. -/
theorem witness_LoadedMemory : ∃ (c : Config) (image : List Byte), c.wellFormed = true ∧
    image.length ≤ memSize - c.loadAddr.toNat ∧ image.length = 3584 :=
  ⟨referenceConfig, List.replicate 3584 0x00#8, by decide, by rw [List.length_replicate]; decide, List.length_replicate⟩

/-- Its clauses where they meet: the last byte of the font, the first and last of a two-byte image, and the 0x00 bytes after
the font, on both sides of the image and at the top of memory. -/
theorem witness_LoadedMemory_edges : ∃ (c : Config) (image : List Byte), c.wellFormed = true ∧
    image.length ≤ memSize - c.loadAddr.toNat ∧ 79 < fontBytes ∧ 0 < image.length ∧ 1 < image.length ∧
    ∀ a ∈ [80, 0x1FF, 0x202, 4095], fontBytes ≤ a ∧ a < memSize ∧
      (a < c.loadAddr.toNat ∨ c.loadAddr.toNat + image.length ≤ a) :=
  ⟨referenceConfig, [0x60#8, 0x05#8], by decide⟩

/-- One byte more than fits. -/
theorem witness_ResetMoveBoots_error : ∃ (c : Config) (rom : Option (List Byte)),
    ∀ image, rom = some image → memSize - c.loadAddr.toNat < image.length :=
  ⟨referenceConfig, some (List.replicate 3585 0x00#8), fun image h => by
    cases h; rw [List.length_replicate]; decide⟩

theorem witness_ResetMoveBoots_reset : ∃ (s : State) (rom : Option (List Byte)), s.nextMove = .reset rom :=
  ⟨halted [.reset (some [0x60#8, 0x05#8])], _, rfl⟩


end Sys2Proof.Tests
end

section
/-! SUPPORT. `PC` after every instruction: the table of 00_scope.md R23 (O53). -/

namespace Sys2Proof.Machine

/-- An instruction that leaves `PC` alone until it advances ends at the next instruction (R15). -/
theorem State.advance_pc_eq_nextPc {s t : State} (h : t.pc = s.pc) : t.advance.pc = s.nextPc := by
  rw [State.advance_pc, h]; rfl

/-- Where a skip under the condition `p` ends (R104 to R107). -/
theorem State.skipIf_pc_of_iff {s : State} {c : Bool} {p : Prop} [Decidable p] (h : c = true ↔ p) :
    (s.skipIf c).pc = if p then s.pc + 4#pcWidth else s.nextPc := by
  simp only [State.skipIf_pc, h]; rfl

/-- A jump ends at its target, unless it halts, which keeps `PC` (R100, R101). -/
theorem execJp_pc (nnn : Addr) (s : State) : ∃ t, execJp nnn s = .next t ∧ t.pc = pcAfter (.jp nnn) s := by
  refine ⟨_, rfl, ?_⟩
  by_cases h : s.cfg.haltOnSelfJump = true ∧ pcOfAddr nnn = s.pc
  · simp [pcAfter, h]
  · have hc : (s.cfg.haltOnSelfJump && pcOfAddr nnn == s.pc) = false := by simpa using h
    simp [pcAfter, h, hc]

/-- Settles O53, by the rows of R23: the jumps and the return, the skips, the key read, and the instructions that end with
`State.advance`, those first whose other effects are loops over memory, registers or pixels. -/
theorem programCounterTable : Obligations.ProgramCounterTable := by
  unfold Obligations.ProgramCounterTable
  intro i s
  cases i with
  | jp nnn => exact execJp_pc nnn s
  | call _ | ret _ | jpV0 _ => exact ⟨_, rfl, State.jump_pc _ _⟩
  | seImm _ _ | seReg _ _ _ => exact ⟨_, rfl, State.skipIf_pc_of_iff beq_iff_eq⟩
  | sneImm _ _ | sneReg _ _ _ => exact ⟨_, rfl, State.skipIf_pc_of_iff bne_iff_ne⟩
  | ldVxK _ => exact ⟨_, rfl, rfl⟩
  | drw _ _ _ => exact ⟨_, rfl, State.advance_pc_eq_nextPc (State.drawRows_pc _ _ _ _ _)⟩
  | ldB _ => exact ⟨_, rfl, State.advance_pc_eq_nextPc (State.writeBytes_pc _ _ _)⟩
  | ldMemVx _ => exact ⟨_, rfl, State.advance_pc_eq_nextPc (State.storeRegs_pc _ _)⟩
  | ldVxMem _ => exact ⟨_, rfl, State.advance_pc_eq_nextPc (State.loadRegs_pc _ _)⟩
  | cls _ | ldImm _ _ | addImm _ _ | ldReg _ _ | orReg _ _ | andReg _ _ | xorReg _ _ | addReg _ _ | sub _ _ | shr _ _
  | subn _ _ | shl _ _ | ldI _ | rnd _ _ | skp _ | sknp _ | ldVxDt _ | ldDtVx _ | ldStVx _ | addI _ | ldF _ =>
    exact ⟨_, rfl, State.advance_pc_eq_nextPc rfl⟩

end Sys2Proof.Machine
end

section
/-! SUPPORT. The memory the reset sequence leaves when the image fits (70_reset_and_hazards.md R260 to R263; O59). -/

namespace Sys2Proof

theorem Config.wellFormed_iff (c : Config) : c.wellFormed = true ↔
    fontBytes ≤ c.loadAddr.toNat ∧ c.loadAddr.toNat < memSize ∧
    fontBytes + 2 ≤ c.stackBase.toNat ∧ c.stackBase.toNat < c.loadAddr.toNat := by
  simp [Config.wellFormed, and_assoc]

end Sys2Proof

namespace Sys2Proof.Machine

/-- Above the font a cleared byte is 0x00 (R260 step 2). -/
theorem State.readByte_cleared (c : Config) {a : Nat} (h : fontBytes ≤ a) (ha : a < memSize) :
    (State.cleared c).readByte a = 0x00#8 := by
  have hout : ¬(fontBase ≤ a ∧ a < fontBase + fontBytes) := by simp only [fontBase]; omega
  calc (State.cleared c).readByte a
      = unlisted (a % memSize) := rfl
    _ = unlisted a := by rw [Nat.mod_eq_of_lt ha]
    _ = 0x00#8 := dif_neg hout

section
variable (s : State)

/-- The bytes of the loaded font (R261). -/
theorem State.readByte_loadFont {a : Nat} (h : a < fontBytes) : s.loadFont.readByte a = s.cfg.font[a] := by
  have hl : s.cfg.font.toList.length = fontBytes := Vector.length_toList
  have := s.readByte_writeBytes_self fontBase s.cfg.font.toList (by rw [hl]; decide) (hl.symm ▸ h)
  simpa [State.loadFont] using this

/-- The font's load writes no byte above the font. -/
theorem State.readByte_loadFont_above {a : Nat} (h : fontBytes ≤ a) (ha : a < memSize) :
    s.loadFont.readByte a = s.readByte a := by
  refine s.readByte_writeBytes_other _ fun j hj => ?_
  simp only [Vector.length_toList, fontBytes_eq, fontBase, memSize] at *
  omega

end

section
variable {c : Config} {image : List Byte} (hfit : image.length ≤ memSize - c.loadAddr.toNat)
include hfit

/-- An image that fits is written from `LOAD_ADDR` on, after the font (R260, R263). -/
theorem State.boot_of_fits :
    State.boot c (some image) = (State.cleared c).loadFont.writeBytes c.loadAddr.toNat image := by
  have hcfg : (State.cleared c).loadFont.cfg = c := State.writeBytes_cfg _ _ _
  simp only [State.boot, State.loadRom, hcfg, hfit, if_true]

/-- An image that fits leaves every byte outside its own range as the font's load left it. -/
theorem State.readByte_boot_outside (hload : c.loadAddr.toNat < memSize) {a : Nat} (ha : a < memSize)
    (hout : a < c.loadAddr.toNat ∨ c.loadAddr.toNat + image.length ≤ a) :
    (State.boot c (some image)).readByte a = (State.cleared c).loadFont.readByte a := by
  rw [State.boot_of_fits hfit]
  refine State.readByte_writeBytes_other _ _ fun j hj => ?_
  simp only [memSize] at *
  omega

end

/-- Settles O59: the image lies above the font and ends inside memory, so it overwrites no byte of the font. -/
theorem loadedMemory : Obligations.LoadedMemory := by
  unfold Obligations.LoadedMemory
  intro c image hwf hfit
  obtain ⟨hfont, hload, -, -⟩ := c.wellFormed_iff.1 hwf
  refine ⟨?noError, fun a h => ?font, fun j h => ?image, fun a h ha hout => ?zeros⟩
  case noError =>
    rw [State.boot_of_fits hfit, State.writeBytes_loadError]
    exact State.writeBytes_loadError _ _ _
  case font =>
    have hbelow : a < c.loadAddr.toNat := h.trans_le hfont
    rw [State.readByte_boot_outside hfit hload (hbelow.trans hload) (.inl hbelow)]
    exact State.readByte_loadFont _ h
  case image =>
    rw [State.boot_of_fits hfit]
    exact State.readByte_writeBytes_self _ _ _ (hfit.trans (Nat.sub_le _ _)) h
  case zeros =>
    rw [State.readByte_boot_outside hfit hload ha hout, State.readByte_loadFont_above _ h ha, State.readByte_cleared c h ha]

end Sys2Proof.Machine
end

section
/-! SUPPORT. Which instruction can change which piece of state but `PC` (10_state.md R20 to R34, 20_memory.md R56; O55, O54). -/

namespace Sys2Proof.Machine

/-- `s` with every piece of state that an instruction of kind `k` may write taken from `t`: the writers that R20 to R34 and
R56 list. -/
def onlyWritten (k : Kind) (s t : State) : State :=
  match k with
  | .cls => { s with pc := t.pc, fb := t.fb, redraw := t.redraw }
  | .ret => { s with pc := t.pc, sp := t.sp }
  | .jp => { s with pc := t.pc, redraw := t.redraw, status := t.status }
  | .call => { s with pc := t.pc, sp := t.sp, mem := t.mem }
  | .ldI | .addI | .ldF => { s with pc := t.pc, i := t.i }
  | .rnd => { s with pc := t.pc, v := t.v, draws := t.draws }
  | .drw => { s with pc := t.pc, v := t.v, fb := t.fb, redraw := t.redraw }
  | .ldVxK => { s with status := t.status, waitX := t.waitX }
  | .ldDtVx => { s with pc := t.pc, dt := t.dt }
  | .ldStVx => { s with pc := t.pc, st := t.st }
  | .ldB | .ldMemVx => { s with pc := t.pc, mem := t.mem }
  | .seImm | .sneImm | .seReg | .sneReg | .jpV0 | .skp | .sknp => { s with pc := t.pc }
  | .ldImm | .addImm | .ldReg | .orReg | .andReg | .xorReg | .addReg | .sub | .shr | .subn | .shl | .ldVxDt
  | .ldVxMem => { s with pc := t.pc, v := t.v }

/-- The sprite loop of `DRW` writes no register but `VF` (R191, R192). -/
theorem State.getV_drawCols_other (s : State) (b : Byte) (y x0 c n : Nat) {r : Nibble} (hr : r ≠ flagReg) :
    (s.drawCols b y x0 c n).getV r = s.getV r := by
  induction n generalizing s c with
  | zero => rfl
  | succ n ih =>
    unfold State.drawCols
    split
    · rw [ih]
      split
      · rw [State.getV_pixelXor, if_neg fun h => hr h.1]
      · rfl
    · rfl

theorem State.getV_drawRows_other (s : State) (x0 y0 k n : Nat) {r : Nibble} (hr : r ≠ flagReg) :
    (s.drawRows x0 y0 k n).getV r = s.getV r := by
  induction n generalizing s k with
  | zero => rfl
  | succ n ih =>
    unfold State.drawRows
    split
    · rw [ih, State.getV_drawCols_other _ _ _ _ _ _ hr]
    · rfl

/-- The destinations of the bulk load are the registers up to `V[x]` (R155). -/
theorem mem_destRegs_ldVxMem {x r : Nibble} : r ∈ destRegs (.ldVxMem x) ↔ r.toNat < x.toNat + 1 := by
  simp only [destRegs, List.mem_map, List.mem_range]
  constructor
  · rintro ⟨k, hk, rfl⟩
    exact (Nat.mod_le k _).trans_lt hk
  · exact fun h => ⟨r.toNat, h, BitVec.eq_of_toNat_eq (Nat.mod_eq_of_lt r.isLt)⟩

section
variable {i : Instr} {s t : State} (h : exec i s = .next t)
include h

theorem exec_only : t = onlyWritten i.kind s t := by
  cases i with
  | jp nnn =>
    cases h
    simp only [onlyWritten, Instr.kind]
    split <;> rfl
  | drw x y n =>
    cases h
    rw [State.drawRows_only]
    rfl
  | ldB x =>
    cases h
    rw [State.writeBytes_only]
    rfl
  | ldMemVx x =>
    cases h
    rw [State.storeRegs_only]
    rfl
  | ldVxMem x =>
    cases h
    rw [State.loadRegs_only]
    rfl
  | _ => cases h; rfl

/-- A register keeps its value unless it is a destination, or `VF` under the list of R21. -/
theorem exec_getV {r : Nibble} (hdest : r ∉ destRegs i) (hflag : ¬(r = flagReg ∧ i.kind ∈ flagKinds)) :
    t.getV r = s.getV r := by
  cases i with
  | ldImm x _ | addImm x _ | ldReg x _ | orReg x _ | andReg x _ | xorReg x _ | rnd x _ | ldVxDt x =>
    cases h
    exact State.getV_setV_other _ _ (by simpa [destRegs] using hdest)
  | addReg x _ | sub x _ | shr x _ | subn x _ | shl x _ =>
    cases h
    have hx : r ≠ x := by simpa [destRegs] using hdest
    have hf : r ≠ flagReg := fun e => hflag ⟨e, by simp [Instr.kind, flagKinds]⟩
    rw [State.getV_flagThenResult, if_neg hx, if_neg hf]
  | drw x y n =>
    cases h
    have hf : r ≠ flagReg := fun e => hflag ⟨e, by simp [Instr.kind, flagKinds]⟩
    exact (State.getV_drawRows_other _ _ _ _ _ hf).trans (State.getV_setV_other _ _ hf)
  | ldVxMem x =>
    cases h
    exact (State.getV_loadRegs s x.isLt r).trans (if_neg (mt mem_destRegs_ldVxMem.2 hdest))
  | _ => exact State.getV_congr (by rw [exec_only h]; rfl) r

theorem kind_of_exec_i_ne : t.i ≠ s.i → i.kind ∈ [Kind.ldI, .addI, .ldF] := by
  rw [exec_only h]; cases i.kind <;> simp [onlyWritten]

theorem kind_of_exec_sp_ne : t.sp ≠ s.sp → i.kind ∈ [Kind.call, .ret] := by
  rw [exec_only h]; cases i.kind <;> simp [onlyWritten]

theorem kind_of_exec_dt_ne : t.dt ≠ s.dt → i.kind = .ldDtVx := by
  rw [exec_only h]; cases i.kind <;> simp [onlyWritten]

theorem kind_of_exec_st_ne : t.st ≠ s.st → i.kind = .ldStVx := by
  rw [exec_only h]; cases i.kind <;> simp [onlyWritten]

theorem kind_of_exec_fb_ne : t.fb ≠ s.fb → i.kind ∈ [Kind.cls, .drw] := by
  rw [exec_only h]; cases i.kind <;> simp [onlyWritten]

theorem kind_of_exec_mem_ne : t.mem ≠ s.mem → i.kind ∈ [Kind.call, .ldB, .ldMemVx] := by
  rw [exec_only h]; cases i.kind <;> simp [onlyWritten]

theorem kind_of_exec_redraw_ne : t.redraw ≠ s.redraw → i.kind ∈ [Kind.cls, .drw, .jp] := by
  rw [exec_only h]; cases i.kind <;> simp [onlyWritten]

theorem kind_of_exec_status_ne : t.status ≠ s.status → i.kind ∈ [Kind.jp, .ldVxK] := by
  rw [exec_only h]; cases i.kind <;> simp [onlyWritten]

theorem kind_of_exec_waitX_ne : t.waitX ≠ s.waitX → i.kind = .ldVxK := by
  rw [exec_only h]; cases i.kind <;> simp [onlyWritten]

theorem kind_of_exec_draws_ne : t.draws ≠ s.draws → i.kind = .rnd := by
  rw [exec_only h]; cases i.kind <;> simp [onlyWritten]

theorem exec_errAddr : t.errAddr = s.errAddr := by rw [exec_only h]; cases i.kind <;> rfl
theorem exec_errWord : t.errWord = s.errWord := by rw [exec_only h]; cases i.kind <;> rfl
theorem exec_cfg : t.cfg = s.cfg := by rw [exec_only h]; cases i.kind <;> rfl
theorem exec_loadError : t.loadError = s.loadError := by rw [exec_only h]; cases i.kind <;> rfl
theorem exec_schedule : t.schedule = s.schedule := by rw [exec_only h]; cases i.kind <;> rfl

end

/-- Settles O55, clause by clause. -/
theorem whoWritesWhat : Obligations.WhoWritesWhat := by
  unfold Obligations.WhoWritesWhat
  intro i s t h
  refine ⟨fun r hr => ?_, kind_of_exec_i_ne h, kind_of_exec_sp_ne h, kind_of_exec_dt_ne h, kind_of_exec_st_ne h,
    kind_of_exec_fb_ne h, kind_of_exec_mem_ne h, kind_of_exec_redraw_ne h, kind_of_exec_status_ne h,
    kind_of_exec_waitX_ne h, kind_of_exec_draws_ne h, exec_errAddr h, exec_errWord h, exec_cfg h, exec_loadError h,
    exec_schedule h⟩
  by_contra hno
  exact hr (exec_getV h (fun hd => hno (.inl hd)) fun hf => hno (.inr hf))

/-- Settles O54, which is O55 at `VF`. -/
theorem onlyFlagWritersChangeVf : Obligations.OnlyFlagWritersChangeVf := by
  unfold Obligations.OnlyFlagWritersChangeVf
  intro i s t h hvf
  obtain ⟨hregs, -⟩ := whoWritesWhat i s t h
  exact (hregs flagReg hvf).symm.imp_left And.right

end Sys2Proof.Machine
end

section
/-! SUPPORT. What every move keeps: the configuration inputs (R34; O16) and the invariant of the machine (O13). -/

namespace Sys2Proof.Machine

/-! ### The reset sequence -/

theorem State.loadRom_only (s : State) (rom : Option (List Byte)) :
    s.loadRom rom = { s with mem := (s.loadRom rom).mem, loadError := (s.loadRom rom).loadError } := by
  unfold State.loadRom
  split
  · rfl
  · split
    · exact (State.writeBytes_only ..).trans (by rw [State.writeBytes_loadError])
    · rfl

theorem State.wf_loadRom (s : State) (rom : Option (List Byte)) (h : Memory.wf s.mem = true) :
    Memory.wf (s.loadRom rom).mem = true := by
  unfold State.loadRom
  split
  · exact h
  · split
    · exact State.wf_writeBytes _ _ _ h
    · exact h

/-- The reset sequence sets every register by its first two steps; the rest of it writes memory and `load_error` alone
(R260). -/
theorem State.boot_only (c : Config) (rom : Option (List Byte)) :
    State.boot c rom =
      { State.cleared c with mem := (State.boot c rom).mem, loadError := (State.boot c rom).loadError } := by
  unfold State.boot
  rw [State.loadRom_only, State.loadFont, State.writeBytes_only]

theorem State.wf_boot (c : Config) (rom : Option (List Byte)) : Memory.wf (State.boot c rom).mem = true :=
  State.wf_loadRom _ _ (State.wf_writeBytes _ _ _ Memory.wf_nil)

theorem State.boot_inv (c : Config) (rom : Option (List Byte)) : (State.boot c rom).Inv :=
  ⟨State.wf_boot c rom, by rw [State.boot_only]; rfl⟩

theorem State.reboot_cfg (s : State) (rom : Option (List Byte)) : (s.reboot rom).cfg = s.cfg :=
  show (State.boot s.cfg rom).cfg = s.cfg by rw [State.boot_only]; rfl

/-- The invariant does not speak of the schedule and the count of draws, all that a reset keeps besides the configuration
(log 12). -/
theorem State.reboot_inv (s : State) (rom : Option (List Byte)) : (s.reboot rom).Inv :=
  State.boot_inv s.cfg rom

/-! ### What each status says of a state with the invariant -/

section
variable {s : State}

theorem State.statusOk_run (h : s.status = .run) : s.statusOk = true ↔ s.errAddr = 0#pcWidth ∧ s.errWord = 0#16 := by
  simp [State.statusOk, h]

theorem State.statusOk_waitKey (h : s.status = .waitKey) : s.statusOk = true ↔
    (s.errAddr = 0#pcWidth ∧ s.errWord = 0#16) ∧ decode s.fetchWord = .named (.ldVxK s.waitX) := by
  simp [State.statusOk, h]

theorem State.statusOk_haltDecode (h : s.status = .haltDecode) : s.statusOk = true ↔
    s.errAddr = s.pc ∧ s.errWord = s.fetchWord ∧ (decode s.errWord).instr? = none := by
  simp [State.statusOk, h, and_assoc]

theorem State.statusOk_haltSelfJump (h : s.status = .haltSelfJump) : s.statusOk = true ↔
    (s.errAddr = 0#pcWidth ∧ s.errWord = 0#16) ∧ s.cfg.haltOnSelfJump = true ∧
      decode s.fetchWord = .named (.jp (s.pc.setWidth 12)) ∧ pcOfAddr (s.pc.setWidth 12) = s.pc := by
  simp [State.statusOk, h, and_assoc]

/-- A key completes a wait, whose zero halt record the running engine keeps; at any other time it is not taken (R233). -/
theorem State.offerKey_inv (k : Byte) (hs : s.Inv) : (s.offerKey k).Inv := by
  unfold State.offerKey
  split
  · next hw =>
    obtain ⟨hmem, hok⟩ := hs
    obtain ⟨hrec, -⟩ := (State.statusOk_waitKey hw).1 hok
    exact ⟨hmem, (State.statusOk_run rfl).2 hrec⟩
  all_goals exact hs

theorem State.offerKey_cfg (k : Byte) : (s.offerKey k).cfg = s.cfg := by
  unfold State.offerKey
  split <;> rfl

end

/-! ### The engine -/

/-- The target of a self-jump is the low 12 bits of its own address. -/
theorem setWidth_pcOfAddr (nnn : Addr) : (pcOfAddr nnn).setWidth 12 = nnn :=
  (BitVec.setWidth_setWidth_of_le nnn (by decide)).trans (BitVec.setWidth_eq nnn)

section
variable {i : Instr} {s t : State}

/-- `JP nnn` halts at a jump to its own address, with the switch on, or jumps (R100, R101). -/
theorem execJp_next {nnn : Addr} (h : execJp nnn s = .next t) :
    (s.cfg.haltOnSelfJump = true ∧ pcOfAddr nnn = s.pc ∧ t = s.haltSelfJump) ∨ t = s.jump (pcOfAddr nnn) := by
  cases h
  split
  · next hc =>
    obtain ⟨hon, hself⟩ : s.cfg.haltOnSelfJump = true ∧ pcOfAddr nnn = s.pc := by simpa using hc
    exact .inl ⟨hon, hself, rfl⟩
  · exact .inr rfl

theorem exec_wf_mem (h : exec i s = .next t) (hm : Memory.wf s.mem = true) : Memory.wf t.mem = true := by
  cases i with
  | call _ => cases h; exact State.wf_push _ _ hm
  | ldB _ => cases h; exact State.wf_writeBytes _ _ _ hm
  | ldMemVx _ => cases h; exact State.wf_storeRegs _ _ hm
  | _ => rwa [not_imp_comm.1 (kind_of_exec_mem_ne h) (by simp [Instr.kind])]

/-- An instruction leaves the engine running, with its zero halt record, but `JP` at its own address and `LD Vx, K`: these
keep `PC` and memory, so the halt and the wait stand at their instruction (R101, R171). -/
theorem exec_inv (hrun : s.status = .run) (hdec : decode s.fetchWord = .named i) (hs : s.Inv) (h : exec i s = .next t) :
    t.Inv := by
  obtain ⟨hmem, hok⟩ := hs
  have hrec := (State.statusOk_run hrun).1 hok
  refine ⟨exec_wf_mem h hmem, ?_⟩
  cases i with
  | jp nnn =>
    obtain ⟨hon, hself, rfl⟩ | rfl := execJp_next h
    · have hlow : s.pc.setWidth 12 = nnn := hself ▸ setWidth_pcOfAddr nnn
      exact (State.statusOk_haltSelfJump rfl).2 ⟨hrec, hon, hlow.symm ▸ hdec, hlow.symm ▸ hself⟩
    · exact (State.statusOk_run (s := s.jump (pcOfAddr nnn)) hrun).2 hrec
  | ldVxK x =>
    cases h
    exact (State.statusOk_waitKey rfl).2 ⟨hrec, hdec⟩
  | _ =>
    have hst : t.status = .run := (not_imp_comm.1 (kind_of_exec_status_ne h) (by simp [Instr.kind])).trans hrun
    exact (State.statusOk_run hst).2 (by rwa [exec_errAddr h, exec_errWord h])

theorem engineStep_inv (hs : s.Inv) (h : engineStep s = .next t) : t.Inv := by
  obtain ⟨i, hrun, hdec, he⟩ | ⟨why, -, hdec, rfl⟩ | ⟨-, rfl⟩ := engineStep_next h
  · exact exec_inv hrun hdec hs he
  · obtain ⟨hmem, -⟩ := hs
    exact ⟨hmem, (State.statusOk_haltDecode rfl).2 ⟨rfl, rfl, congrArg Decoded.instr? hdec⟩⟩
  · exact hs

theorem engineStep_cfg (h : engineStep s = .next t) : t.cfg = s.cfg := by
  obtain ⟨i, -, -, he⟩ | ⟨-, -, -, rfl⟩ | ⟨-, rfl⟩ := engineStep_next h
  · exact exec_cfg he
  · rfl
  · rfl

end

/-- Settles O13, move by move. The invariant does not speak of the schedule, the timers and `redraw`, so taking the move off
the schedule, a tick and a render keep it as it stands. -/
theorem stepKeepsInvariant : Obligations.StepKeepsInvariant := by
  unfold Obligations.StepKeepsInvariant
  intro s t hs h
  have hpop : s.popMove.Inv := hs
  obtain ⟨rom, -, rfl⟩ | ⟨-, ⟨-, he⟩ | ⟨-, rfl⟩ | ⟨k, -, rfl⟩ | ⟨-, rfl⟩⟩ := step_next h
  · exact State.reboot_inv _ rom
  · exact engineStep_inv hpop he
  · exact hpop
  · exact State.offerKey_inv k hpop
  · exact hpop

/-- Settles O16, move by move. -/
theorem configurationIsConstant : Obligations.ConfigurationIsConstant := by
  unfold Obligations.ConfigurationIsConstant
  intro s t h
  obtain ⟨rom, -, rfl⟩ | ⟨-, ⟨-, he⟩ | ⟨-, rfl⟩ | ⟨k, -, rfl⟩ | ⟨-, rfl⟩⟩ := step_next h
  · exact State.reboot_cfg _ rom
  · exact (engineStep_cfg he).trans s.popMove_cfg
  · rfl
  · exact State.offerKey_cfg k
  · rfl

end Sys2Proof.Machine
end

section
/-! SUPPORT. No instruction reads `ST` or `redraw` (10_state.md R27, R30; O56, O57). -/

namespace Sys2Proof.Machine

/-- `s` with other values in the three pieces that a tick writes: `DT`, `ST` and `redraw` (R229). -/
def State.withTimers (s : State) (d u : Timer) (r : Bool) : State := { s with dt := d, st := u, redraw := r }

section
variable (s : State) (d u : Timer) (r : Bool)

/-! ### The loops over memory, registers and pixels read none of the three -/

theorem State.writeBytes_withTimers (a : Nat) (bs : List Byte) :
    (s.withTimers d u r).writeBytes a bs = (s.writeBytes a bs).withTimers d u r := by
  induction bs generalizing s a with
  | nil => rfl
  | cons b bs ih => exact ih (s.writeByte a b) (a + 1)

theorem State.storeRegs_withTimers (n : Nat) :
    (s.withTimers d u r).storeRegs n = (s.storeRegs n).withTimers d u r := by
  induction n with
  | zero => rfl
  | succ n ih => rw [State.storeRegs, ih]; rfl

theorem State.loadRegs_withTimers (n : Nat) :
    (s.withTimers d u r).loadRegs n = (s.loadRegs n).withTimers d u r := by
  induction n with
  | zero => rfl
  | succ n ih => rw [State.loadRegs, ih]; rfl

theorem State.pixelXor_withTimers (y x : Nat) :
    (s.withTimers d u r).pixelXor y x = (s.pixelXor y x).withTimers d u r := by
  rw [State.pixelXor, State.pixelXor, apply_ite (State.withTimers · d u r)]
  rfl

theorem State.drawCols_withTimers (b : Byte) (y x0 c n : Nat) :
    (s.withTimers d u r).drawCols b y x0 c n = (s.drawCols b y x0 c n).withTimers d u r := by
  induction n generalizing s c with
  | zero => rfl
  | succ n ih =>
    rw [State.drawCols, State.drawCols, State.pixelXor_withTimers, ← apply_ite (State.withTimers · d u r), ih]
    exact (apply_ite (State.withTimers · d u r) ..).symm

theorem State.drawRows_withTimers (x0 y0 k n : Nat) :
    (s.withTimers d u r).drawRows x0 y0 k n = (s.drawRows x0 y0 k n).withTimers d u r := by
  induction n generalizing s k with
  | zero => rfl
  | succ n ih =>
    rw [State.drawRows, State.drawRows, State.drawCols_withTimers, ih]
    exact (apply_ite (State.withTimers · d u r) ..).symm

end

section
variable {i : Instr} {s t : State}

/-- `DT` is what `LD DT, Vx` makes of it (R26). -/
theorem exec_dt (h : exec i s = .next t) : (if i.kind = .ldDtVx then t.dt else s.dt) = t.dt :=
  ite_eq_left_iff.2 fun hk => (not_imp_comm.1 (kind_of_exec_dt_ne h) hk).symm

/-- `ST` is what `LD ST, Vx` makes of it (R27). -/
theorem exec_st (h : exec i s = .next t) : (if i.kind = .ldStVx then t.st else s.st) = t.st :=
  ite_eq_left_iff.2 fun hk => (not_imp_comm.1 (kind_of_exec_st_ne h) hk).symm

variable (d u : Timer) (r : Bool)

/-- With other values in `DT`, `ST` and `redraw`, the same instruction does the same to all the rest; each of the three keeps
its new value or takes what the instruction writes to it. Only `LD Vx, DT` has to find the same `DT`. -/
theorem exec_withTimers (hdt : i.kind = .ldVxDt → d = s.dt) (h : exec i s = .next t) :
    ∃ r', exec i (s.withTimers d u r) =
        .next (t.withTimers (if i.kind = .ldDtVx then t.dt else d) (if i.kind = .ldStVx then t.st else u) r') ∧
      (r' = r ∧ t.redraw = s.redraw ∨ r' = true ∧ t.redraw = true) := by
  cases i with
  | ldVxDt x =>
    cases h
    obtain rfl := hdt rfl
    exact ⟨r, rfl, .inl ⟨rfl, rfl⟩⟩
  | jp nnn =>
    cases h
    by_cases hself : (s.cfg.haltOnSelfJump && pcOfAddr nnn == s.pc) = true
    · rw [if_pos hself]
      exact ⟨true, congrArg Host.Outcome.next (if_pos hself), .inr ⟨rfl, rfl⟩⟩
    · rw [if_neg hself]
      exact ⟨r, congrArg Host.Outcome.next (if_neg hself), .inl ⟨rfl, rfl⟩⟩
  | cls _ => cases h; exact ⟨true, rfl, .inr ⟨rfl, rfl⟩⟩
  | drw x y n =>
    cases h
    have hloop := (s.setV flagReg 0#vWidth).drawRows_withTimers d u r (startCol (s.getV x)) (startRow (s.getV y)) 0 n.toNat
    exact ⟨true, congrArg (fun w : State => Host.Outcome.next ({ w with redraw := true } : State).advance) hloop,
      .inr ⟨rfl, rfl⟩⟩
  | ldB x =>
    cases h
    have hloop := s.writeBytes_withTimers d u r (s.indexAddr 0) [hundreds (s.getV x), tens (s.getV x), ones (s.getV x)]
    exact ⟨r, congrArg (fun w : State => Host.Outcome.next w.advance) hloop, .inl ⟨rfl, State.writeBytes_redraw ..⟩⟩
  | ldMemVx x =>
    cases h
    have hloop := s.storeRegs_withTimers d u r (x.toNat + 1)
    exact ⟨r, congrArg (fun w : State => Host.Outcome.next w.advance) hloop, .inl ⟨rfl, State.storeRegs_redraw ..⟩⟩
  | ldVxMem x =>
    cases h
    have hloop := s.loadRegs_withTimers d u r (x.toNat + 1)
    exact ⟨r, congrArg (fun w : State => Host.Outcome.next w.advance) hloop, .inl ⟨rfl, State.loadRegs_redraw ..⟩⟩
  | _ => cases h; exact ⟨r, rfl, .inl ⟨rfl, rfl⟩⟩

end

/-- Settles O56: with `DT` and `redraw` as they were, only `ST` can differ afterwards. -/
theorem soundTimerIsNotRead : Obligations.SoundTimerIsNotRead := by
  unfold Obligations.SoundTimerIsNotRead
  intro i s t b h
  obtain ⟨r', he, hr⟩ := exec_withTimers s.dt b s.redraw (fun _ => rfl) h
  have hredraw : r' = t.redraw := by
    obtain ⟨rfl, ht⟩ | ⟨rfl, ht⟩ := hr <;> exact ht.symm
  rw [exec_dt h, hredraw] at he
  exact he

/-- Settles O57: with `DT` and `ST` as they were, only `redraw` can differ afterwards. -/
theorem redrawIsNotRead : Obligations.RedrawIsNotRead := by
  unfold Obligations.RedrawIsNotRead
  intro i s t b h
  obtain ⟨r', he, hr⟩ := exec_withTimers s.dt s.st b (fun _ => rfl) h
  rw [exec_dt h, exec_st h] at he
  exact ⟨r', he, hr.imp And.left And.left⟩

end Sys2Proof.Machine
end

section
/-! SUPPORT. A tick and an instruction that touches no timer commute (20_memory.md R57; 60_exceptions.md R225, R226; O45). -/

namespace Sys2Proof.Machine

/-- A tick counts both timers down and sets `redraw` (R229). -/
theorem State.tick_eq_withTimers (s : State) : s.tick = s.withTimers (countDown s.dt) (countDown s.st) true := rfl

/-- Settles O45: a tick puts other values into `DT`, `ST` and `redraw` alone. The instruction reads none of the three and
leaves both timers to the tick; `redraw` is set in either order. -/
theorem tickCommutesWithInstruction : Obligations.TickCommutesWithInstruction := by
  unfold Obligations.TickCommutesWithInstruction
  intro i s t hk h
  obtain ⟨hreadDt, hwriteDt, hwriteSt⟩ : i.kind ≠ .ldVxDt ∧ i.kind ≠ .ldDtVx ∧ i.kind ≠ .ldStVx := by
    simpa using hk
  have hdt : t.dt = s.dt := not_imp_comm.1 (kind_of_exec_dt_ne h) hwriteDt
  have hst : t.st = s.st := not_imp_comm.1 (kind_of_exec_st_ne h) hwriteSt
  obtain ⟨r, he, hr⟩ := exec_withTimers (countDown s.dt) (countDown s.st) true (fun hd => absurd hd hreadDt) h
  obtain rfl : r = true := hr.elim And.left And.left
  rw [if_neg hwriteDt, if_neg hwriteSt] at he
  rw [State.tick_eq_withTimers, State.tick_eq_withTimers, hdt, hst]
  exact he

end Sys2Proof.Machine
end

section
/-! SUPPORT. What the fetch reads (20_memory.md R52, R63; O7, O37). -/

namespace Sys2Proof

/-- The byte at the lower address is the high one (R52). -/
theorem wordOfBytes_toNat (hi lo : Byte) : (wordOfBytes hi lo).toNat = hi.toNat * 256 + lo.toNat := by
  rw [wordOfBytes, BitVec.toNat_append, ← Nat.shiftLeft_add_eq_or_of_lt lo.isLt, Nat.shiftLeft_eq]

end Sys2Proof

namespace Sys2Proof.Machine

theorem State.fetchWord_toNat (s : State) :
    s.fetchWord.toNat = (s.readByte s.pc.toNat).toNat * 256 + (s.readByte (s.pc.toNat + 1)).toNat :=
  wordOfBytes_toNat _ _

/-- Settles O7: each of the two bytes is read at its own address mod 4096, so the one after the last is `mem[0]`. -/
theorem fetchIsBigEndian : Obligations.FetchIsBigEndian := by
  unfold Obligations.FetchIsBigEndian
  intro s
  refine ⟨s.fetchWord_toNat, fun hlast => ?_⟩
  have hwrap : (s.pc.toNat + 1) % memSize = 0 := by simp only [memSize]; omega
  rw [State.fetchWord_toNat, State.readByte, State.readByte, hwrap, hlast]

/-- Settles O37: `LD [I], Vx` stores `V0` and `V1` at `I` and `I + 1`, the two addresses that the next fetch reads. -/
theorem storeIsFetchedNext : Obligations.StoreIsFetchedNext := by
  unfold Obligations.StoreIsFetchedNext
  intro x s hx hindex
  refine ⟨_, rfl, ?_⟩
  have hpc : (s.storeRegs (x.toNat + 1)).advance.pc.toNat = s.indexAddr 0 := by
    rw [State.advance_pc, State.storeRegs_pc, ← hindex]; rfl
  have hbyte (j : Nat) (hj : j < x.toNat + 1) :
      (s.storeRegs (x.toNat + 1)).advance.readByte (s.indexAddr j) = s.getV (BitVec.ofNat 4 j) :=
    (State.readByte_congr (State.advance_mem _) _).trans (s.readByte_storeRegs_self x.isLt hj)
  rw [State.fetchWord_toNat, hpc]
  exact congrArg₂ (fun high low : Byte => high.toNat * 256 + low.toNat) (hbyte 0 (by omega)) (hbyte 1 (by omega))

end Sys2Proof.Machine
end

section
/-! SUPPORT. The decoder, the encoder and the opcode map agree (30_encoding.md R71 to R81; O1 to O5). -/

namespace Sys2Proof

/-! ### A word put together again, the fields that the map fixes given by value -/

section
variable {w : Word} {g n : Nibble} {kk : Byte}

theorem formNnn_of_group (hg : fieldG w = g) : formNnn g (fieldNnn w) = w := by
  subst hg; exact formNnn_fields w

theorem formXkk_of_group (hg : fieldG w = g) : formXkk g (fieldX w) (fieldKk w) = w := by
  subst hg; exact formXkk_fields w

theorem formXyn_of_group (hg : fieldG w = g) : formXyn g (fieldX w) (fieldY w) (fieldN w) = w := by
  subst hg; exact formXyn_fields w

theorem formXkk_of_sub (hg : fieldG w = g) (hkk : fieldKk w = kk) : formXkk g (fieldX w) kk = w := by
  subst hkk; exact formXkk_of_group hg

theorem formXyn_of_sub (hg : fieldG w = g) (hn : fieldN w = n) : formXyn g (fieldX w) (fieldY w) n = w := by
  subst hn; exact formXyn_of_group hg

end

/-! ### What the decoder makes of a word -/

/-- The words that R81 lists as `INVALID`. -/
def ListedInvalid (w : Word) : Prop :=
  (fieldG w = 0x0#4 ∧ fieldKk w ∉ [0xE0#8, 0xEE#8]) ∨
  (fieldG w = 0x8#4 ∧ fieldN w ∈ [0x8#4, 0x9#4, 0xA#4, 0xB#4, 0xC#4, 0xD#4, 0xF#4]) ∨
  (fieldG w = 0xE#4 ∧ fieldKk w ∉ [0x9E#8, 0xA1#8]) ∨
  (fieldG w = 0xF#4 ∧ fieldKk w ∉ [0x07#8, 0x0A#8, 0x15#8, 0x18#8, 0x1E#8, 0x29#8, 0x33#8, 0x55#8, 0x65#8])

/-- `d` is what the map makes of `w`: `INVALID` where R81 lists `w`, otherwise an instruction whose word is `w`. -/
def ReadsAs (w : Word) (d : Decoded) : Prop :=
  (ListedInvalid w ∧ ∃ why, d = .invalid why) ∨ (¬ListedInvalid w ∧ ∃ i, d = .named i ∧ encode i = w)

section
variable {w : Word}

theorem ReadsAs.invalid {why : Invalid} (h : ListedInvalid w) : ReadsAs w (.invalid why) := .inl ⟨h, why, rfl⟩

theorem ReadsAs.named {i : Instr} (h : ¬ListedInvalid w) (he : encode i = w) : ReadsAs w (.named i) :=
  .inr ⟨h, i, rfl, he⟩

/-- A group that does not dispatch further has no `INVALID` word (R77, R81). -/
theorem ReadsAs.named_of_group {g : Nibble} {i : Instr} (hg : fieldG w = g) (hne : g ∉ [0x0#4, 0x8#4, 0xE#4, 0xF#4])
    (he : encode i = w) : ReadsAs w (.named i) :=
  .named (by simp_all [ListedInvalid]) he

theorem decodeGroup0_readsAs (hg : fieldG w = 0x0#4) : ReadsAs w (decodeGroup0 w) := by
  unfold decodeGroup0
  split
  case h_3 => exact .invalid (by simp_all [ListedInvalid])
  all_goals next hkk => exact .named (by simp [ListedInvalid, hg, hkk]) (formXkk_of_sub hg hkk)

/-- The low nibbles that no row of group 0x8 has are the seven of R81. -/
theorem mem_unused_of_notMem_used : ∀ n : Nibble,
    n ∉ [0x0#4, 0x1#4, 0x2#4, 0x3#4, 0x4#4, 0x5#4, 0x6#4, 0x7#4, 0xE#4] →
    n ∈ [0x8#4, 0x9#4, 0xA#4, 0xB#4, 0xC#4, 0xD#4, 0xF#4] := by
  decide

theorem decodeGroup8_readsAs (hg : fieldG w = 0x8#4) : ReadsAs w (decodeGroup8 w) := by
  unfold decodeGroup8
  split
  case h_10 => exact .invalid (.inr (.inl ⟨hg, mem_unused_of_notMem_used _ (by simp_all)⟩))
  all_goals next hn => exact .named (by simp [ListedInvalid, hg, hn]) (formXyn_of_sub hg hn)

theorem decodeGroupE_readsAs (hg : fieldG w = 0xE#4) : ReadsAs w (decodeGroupE w) := by
  unfold decodeGroupE
  split
  case h_3 => exact .invalid (by simp_all [ListedInvalid])
  all_goals next hkk => exact .named (by simp [ListedInvalid, hg, hkk]) (formXkk_of_sub hg hkk)

theorem decodeGroupF_readsAs (hg : fieldG w = 0xF#4) : ReadsAs w (decodeGroupF w) := by
  unfold decodeGroupF
  split
  case h_10 => exact .invalid (by simp_all [ListedInvalid])
  all_goals next hkk => exact .named (by simp [ListedInvalid, hg, hkk]) (formXkk_of_sub hg hkk)

/-- The group that `decode` leaves to its last arm (R71). -/
theorem eq_groupF_of_notMem : ∀ g : Nibble,
    g ∉ [0x0#4, 0x1#4, 0x2#4, 0x3#4, 0x4#4, 0x5#4, 0x6#4, 0x7#4, 0x8#4, 0x9#4, 0xA#4, 0xB#4, 0xC#4, 0xD#4, 0xE#4] →
    g = 0xF#4 := by
  decide

/-- The arms of `decode`: the four groups that dispatch further, then those of each format of R72. -/
theorem decode_readsAs (w : Word) : ReadsAs w (decode w) := by
  unfold decode
  split
  case h_1 hg => exact decodeGroup0_readsAs hg
  case h_9 hg => exact decodeGroup8_readsAs hg
  case h_15 hg => exact decodeGroupE_readsAs hg
  case h_16 => exact decodeGroupF_readsAs (eq_groupF_of_notMem _ (by simp_all))
  case h_2 hg | h_3 hg | h_11 hg | h_12 hg => exact .named_of_group hg (by decide) (formNnn_of_group hg)
  case h_4 hg | h_5 hg | h_7 hg | h_8 hg | h_13 hg => exact .named_of_group hg (by decide) (formXkk_of_group hg)
  case h_6 hg | h_10 hg | h_14 hg => exact .named_of_group hg (by decide) (formXyn_of_group hg)

/-- No bit of a word that decodes is lost (R72, R75). -/
theorem encode_of_decode {i : Instr} (h : decode w = .named i) : encode i = w := by
  obtain ⟨-, why, hw⟩ | ⟨-, j, hj, he⟩ := decode_readsAs w
  · exact absurd (h.symm.trans hw) (by simp)
  · obtain rfl : j = i := by simpa using hj.symm.trans h
    exact he

end

/-! ### Every instruction is what its word decodes to -/

theorem decode_encode (i : Instr) : decode (encode i) = .named i := by
  cases i with
  | cls _ | ret _ => simp [encode, decode, decodeGroup0]
  | ldReg _ _ | orReg _ _ | andReg _ _ | xorReg _ _ | addReg _ _ | sub _ _ | shr _ _ | subn _ _ | shl _ _ =>
    simp [encode, decode, decodeGroup8]
  | skp _ | sknp _ => simp [encode, decode, decodeGroupE]
  | ldVxDt _ | ldVxK _ | ldDtVx _ | ldStVx _ | addI _ | ldF _ | ldB _ | ldMemVx _ | ldVxMem _ =>
    simp [encode, decode, decodeGroupF]
  | _ => simp [encode, decode]

/-! ### The opcode map -/

@[simp] theorem Decoded.kind?_named (i : Instr) : (Decoded.named i).kind? = some i.kind := rfl
@[simp] theorem Decoded.kind?_invalid (why : Invalid) : (Decoded.invalid why).kind? = none := rfl

section
variable {k : Kind} {w : Word}

/-- The word of an instruction selects the row of its kind, by the law of each constructor. -/
theorem selects_encode (i : Instr) : i.kind.selects (encode i) = true := by
  open Laws.EncodeInRow in
  cases i
  exacts [cls _, ret _, jp _, call _, seImm _ _, sneImm _ _, seReg _ _ _, ldImm _ _, addImm _ _, ldReg _ _, orReg _ _,
    andReg _ _, xorReg _ _, addReg _ _, sub _ _, shr _ _, subn _ _, shl _ _, sneReg _ _ _, ldI _, jpV0 _, rnd _ _,
    drw _ _ _, skp _, sknp _, ldVxDt _, ldVxK _, ldDtVx _, ldStVx _, addI _, ldF _, ldB _, ldMemVx _, ldVxMem _]

/-- Every row fixes the group (R71). -/
theorem Kind.fieldG_mask (k : Kind) : fieldG k.row.mask = 0xF#4 := by cases k <;> rfl

theorem fieldG_of_selects (h : k.selects w = true) : fieldG w = fieldG k.row.value := by
  rw [← eq_of_beq h, fieldG, fieldG, BitVec.extractLsb'_and]
  exact (k.fieldG_mask ▸ nibble_and_ones _).symm

theorem fieldKk_of_selects (hm : fieldKk k.row.mask = 0xFF#8) (h : k.selects w = true) :
    fieldKk w = fieldKk k.row.value := by
  rw [← eq_of_beq h, fieldKk, fieldKk, BitVec.extractLsb'_and]
  exact (hm ▸ byte_and_ones _).symm

theorem fieldN_of_selects (hm : fieldN k.row.mask = 0xF#4) (h : k.selects w = true) :
    fieldN w = fieldN k.row.value := by
  rw [← eq_of_beq h, fieldN, fieldN, BitVec.extractLsb'_and]
  exact (hm ▸ nibble_and_ones _).symm

/-- The instruction of kind `k` with the operands that the fields of `w` give (R72, R74). -/
def Kind.instrOf (k : Kind) (w : Word) : Instr :=
  match k with
  | .cls => .cls (fieldX w)
  | .ret => .ret (fieldX w)
  | .jp => .jp (fieldNnn w)
  | .call => .call (fieldNnn w)
  | .seImm => .seImm (fieldX w) (fieldKk w)
  | .sneImm => .sneImm (fieldX w) (fieldKk w)
  | .seReg => .seReg (fieldX w) (fieldY w) (fieldN w)
  | .ldImm => .ldImm (fieldX w) (fieldKk w)
  | .addImm => .addImm (fieldX w) (fieldKk w)
  | .ldReg => .ldReg (fieldX w) (fieldY w)
  | .orReg => .orReg (fieldX w) (fieldY w)
  | .andReg => .andReg (fieldX w) (fieldY w)
  | .xorReg => .xorReg (fieldX w) (fieldY w)
  | .addReg => .addReg (fieldX w) (fieldY w)
  | .sub => .sub (fieldX w) (fieldY w)
  | .shr => .shr (fieldX w) (fieldY w)
  | .subn => .subn (fieldX w) (fieldY w)
  | .shl => .shl (fieldX w) (fieldY w)
  | .sneReg => .sneReg (fieldX w) (fieldY w) (fieldN w)
  | .ldI => .ldI (fieldNnn w)
  | .jpV0 => .jpV0 (fieldNnn w)
  | .rnd => .rnd (fieldX w) (fieldKk w)
  | .drw => .drw (fieldX w) (fieldY w) (fieldN w)
  | .skp => .skp (fieldX w)
  | .sknp => .sknp (fieldX w)
  | .ldVxDt => .ldVxDt (fieldX w)
  | .ldVxK => .ldVxK (fieldX w)
  | .ldDtVx => .ldDtVx (fieldX w)
  | .ldStVx => .ldStVx (fieldX w)
  | .addI => .addI (fieldX w)
  | .ldF => .ldF (fieldX w)
  | .ldB => .ldB (fieldX w)
  | .ldMemVx => .ldMemVx (fieldX w)
  | .ldVxMem => .ldVxMem (fieldX w)

theorem Kind.kind_instrOf (k : Kind) (w : Word) : (k.instrOf w).kind = k := by cases k <;> rfl

/-- A word that selects a row is the word of that row's instruction, format by format (R72, R74). -/
theorem Kind.encode_instrOf (h : k.selects w = true) : encode (k.instrOf w) = w := by
  have hg := fieldG_of_selects h
  cases k with
  | jp | call | ldI | jpV0 => exact formNnn_of_group hg
  | seImm | sneImm | ldImm | addImm | rnd => exact formXkk_of_group hg
  | seReg | sneReg | drw => exact formXyn_of_group hg
  | ldReg | orReg | andReg | xorReg | addReg | sub | shr | subn | shl =>
    exact formXyn_of_sub hg (fieldN_of_selects rfl h)
  | cls | ret | skp | sknp | ldVxDt | ldVxK | ldDtVx | ldStVx | addI | ldF | ldB | ldMemVx | ldVxMem =>
    exact formXkk_of_sub hg (fieldKk_of_selects rfl h)

end

/-! ### The obligations -/

/-- Settles O1, constructor by constructor: the format's fields are the operands it was put together from. -/
theorem decodeOfEncode : Obligations.DecodeOfEncode := decode_encode

/-- Settles O2: every arm of the decoder hands on all fields of the word that its row does not fix. -/
theorem encodeOfDecode : Obligations.EncodeOfDecode := fun _ _ => encode_of_decode

/-- Settles O3 by the encoder, which stands between the map and the decoder: a word that selects a row is the word of an
instruction of that row, and the decoder gives an instruction back from its word. -/
theorem decodeFollowsOpcodeMap : Obligations.DecodeFollowsOpcodeMap := by
  unfold Obligations.DecodeFollowsOpcodeMap
  intro w k
  constructor
  · intro h
    have hd := decode_encode (k.instrOf w)
    rw [Kind.encode_instrOf h] at hd
    rw [hd, Decoded.kind?_named, Kind.kind_instrOf]
  · intro h
    cases hd : decode w with
    | invalid _ => simp [hd] at h
    | named i =>
      obtain rfl : i.kind = k := by simpa [hd] using h
      exact encode_of_decode hd ▸ selects_encode i

/-- Settles O4: the decoder's arms, with the words of R81 left over. -/
theorem invalidWords : Obligations.InvalidWords := by
  unfold Obligations.InvalidWords
  intro w
  obtain ⟨hlisted, why, hd⟩ | ⟨hlisted, i, hd, -⟩ := decode_readsAs w
  · exact ⟨fun _ => hlisted, fun _ => by rw [hd, Decoded.kind?_invalid]⟩
  · exact ⟨fun h => absurd h (by simp [hd]), fun h => absurd h hlisted⟩

/-- Settles O5: each of the six is a closed evaluation of the decoder. -/
theorem vectorWordsDecode : Obligations.VectorWordsDecode := by
  unfold Obligations.VectorWordsDecode
  decide

end Sys2Proof
end

section
/-! SUPPORT. The engine's move, the `INVALID` word, and the instructions whose encodings leave a nibble free
(30_encoding.md R76, R77, R82, R88; O6, O8, O22, O46). -/

namespace Sys2Proof.Machine

/-! ### The engine's move -/

section
variable {s : State}

theorem step_engine (hload : s.loadError = false) (hmove : s.nextMove = .engine) : step s = engineStep s.popMove := by
  simp [step, moveStep, hmove, hload]

theorem engineStep_of_named {i : Instr} (hrun : s.status = .run) (hdec : decode s.fetchWord = .named i) :
    engineStep s = exec i s := by
  simp [engineStep, executeDescriptor, describe, hrun, hdec]

theorem engineStep_of_invalid {why : Invalid} (hrun : s.status = .run) (hdec : decode s.fetchWord = .invalid why) :
    engineStep s = .next (s.raiseDecodeError s.pc s.fetchWord) := by
  simp [engineStep, executeDescriptor, describe, hrun, hdec]

end

/-! ### Frames -/

section
variable {s t : State} {fields : List Field}

/-- The frame of a change that touches neither `V` nor memory. -/
theorem Frame.of_kept (hv : t.v = s.v) (hmem : t.mem = s.mem) (hfields : ∀ f, f ∉ fields → f.same s t) :
    Frame [] fields [] s t :=
  ⟨fun r _ => State.getV_congr hv r, hfields, fun a _ => State.readByte_congr hmem a⟩

/-- A skip writes `PC` alone. -/
theorem State.frame_skipIf (s : State) (c : Bool) : Frame [] [] [] s (s.skipIf c) :=
  .of_kept rfl rfl fun f _ => by cases f <;> rfl

end

/-! ### The obligations -/

/-- Settles O6: the engine fetches and decodes on the state without its move, which holds the same memory and `PC`. -/
theorem stepRunsDecodedInstruction : Obligations.StepRunsDecodedInstruction := by
  unfold Obligations.StepRunsDecodedInstruction
  intro s i hload hmove hrun hdec
  rw [step_engine hload hmove]
  exact engineStep_of_named hrun hdec

/-- Settles O8: the step raises the decode error on the state without the engine's move. -/
theorem invalidWordHalts : Obligations.InvalidWordHalts := by
  unfold Obligations.InvalidWordHalts
  intro s hload hmove hrun hkind
  cases hdec : decode s.fetchWord with
  | named i => simp [hdec] at hkind
  | invalid why =>
    refine ⟨s.popMove.raiseDecodeError s.pc s.fetchWord, ?_, rfl, rfl, rfl, rfl, rfl, .of_kept rfl rfl ?_⟩
    · rw [step_engine hload hmove]
      exact engineStep_of_invalid hrun hdec
    · intro f hf
      cases f with
      | status | errAddr | errWord | schedule => simp at hf
      | _ => rfl

/-- Settles O22: the two encodings are those of `encode`, and both instructions are a skip under their condition. -/
theorem skipOnRegister : Obligations.SkipOnRegister := by
  unfold Obligations.SkipOnRegister
  intro x y ign s
  exact ⟨decode_encode (.seReg x y ign), decode_encode (.sneReg x y ign),
    ⟨_, rfl, State.skipIf_pc_of_iff beq_iff_eq, s.frame_skipIf _⟩,
    ⟨_, rfl, State.skipIf_pc_of_iff bne_iff_ne, s.frame_skipIf _⟩⟩

/-- Settles O46: the framebuffer becomes `Framebuffer.blank`. -/
theorem clearScreen : Obligations.ClearScreen := by
  unfold Obligations.ClearScreen
  intro ign s
  refine ⟨decode_encode (.cls ign), _, rfl, Framebuffer.pixel_blank, rfl, rfl, .of_kept rfl rfl ?_⟩
  intro f hf
  cases f with
  | fb | redraw => simp at hf
  | _ => rfl

end Sys2Proof.Machine
end

section
/-! SUPPORT. Jumps, call and return, and the skips on an immediate (40_control_flow.md R100 to R105, R108; O17 to O21, O23). -/

namespace Sys2Proof.Machine

/-! ### Jumps -/

section
variable {s : State} {nnn : Addr}

theorem pcOfAddr_eq_iff {a : Pc} : pcOfAddr nnn = a ↔ nnn.toNat = a.toNat := by
  rw [← BitVec.toNat_inj, pcOfAddr_toNat]

theorem execJp_of_self (hon : s.cfg.haltOnSelfJump = true) (hself : nnn.toNat = s.pc.toNat) :
    execJp nnn s = .next s.haltSelfJump := by
  simp [execJp, hon, pcOfAddr_eq_iff.2 hself]

theorem execJp_of_not_self (h : ¬(s.cfg.haltOnSelfJump = true ∧ nnn.toNat = s.pc.toNat)) :
    execJp nnn s = .next (s.jump (pcOfAddr nnn)) := by
  simp [execJp, pcOfAddr_eq_iff, h]

end

/-- 12 bits and 8 bits: the sum fits `PC` (R108). -/
theorem pcOfAddr_add_pcOfReg_toNat (nnn : Addr) (r : Reg) :
    (pcOfAddr nnn + pcOfReg r).toNat = nnn.toNat + r.toNat := by
  have hr : r.toNat < 256 := r.isLt
  rw [BitVec.toNat_add, pcOfAddr_toNat, pcOfReg_toNat, two_pow_pcWidth]
  exact Nat.mod_eq_of_lt (by omega)

/-- A jump writes `PC` alone. -/
theorem State.frame_jump (s : State) (a : Pc) : Frame [] [] [] s (s.jump a) :=
  .of_kept rfl rfl fun f _ => by cases f <;> rfl

/-! ### The stack -/

/-- A word is read high byte first (R12). -/
theorem State.readWord_toNat (s : State) (a : Nat) :
    (s.readWord a).toNat = (s.readByte a).toNat * 256 + (s.readByte (a + 1)).toNat :=
  wordOfBytes_toNat _ _

/-- A push changes `SP` and the two bytes at the new top, and with the jump `PC` (R53, R102). -/
theorem State.frame_push_jump (s : State) (w : Word) (a : Pc) :
    Frame [] [.sp] [(s.sp - 2#16).toNat, (s.sp - 2#16).toNat + 1] s ((s.push w).jump a) := by
  refine ⟨fun _ _ => rfl, fun f hf => ?_, fun k hk => ?_⟩
  · cases f with
    | sp => simp at hf
    | _ => rfl
  · exact State.readByte_writeWord_other _ w (hk _ (by simp)) (hk _ (by simp))

/-- A return changes `SP` and `PC` alone (R103). -/
theorem State.frame_drop_jump (s : State) (a : Pc) : Frame [] [.sp] [] s (s.drop.jump a) := by
  refine .of_kept rfl rfl fun f hf => ?_
  cases f with
  | sp => simp at hf
  | _ => rfl

/-! ### The obligations -/

/-- Settles O17: the model compares the target with `PC` as 16-bit values, the statement as numbers. -/
theorem jumpOrSelfJumpHalt : Obligations.JumpOrSelfJumpHalt := by
  unfold Obligations.JumpOrSelfJumpHalt
  intro nnn s
  refine ⟨fun h => ⟨_, execJp_of_not_self h, pcOfAddr_toNat nnn, s.frame_jump _⟩, fun hon hself =>
    ⟨_, execJp_of_self hon hself, rfl, rfl, rfl, .of_kept rfl rfl fun f hf => ?_⟩⟩
  cases f with
  | status | redraw => simp at hf
  | _ => rfl

/-- Settles O18: the two bytes at the new `SP` are the word on top of the stack, which is the one pushed. -/
theorem callPushesAndJumps : Obligations.CallPushesAndJumps := by
  unfold Obligations.CallPushesAndJumps
  intro nnn s
  refine ⟨_, rfl, rfl, ?_, pcOfAddr_toNat nnn, s.frame_push_jump _ _⟩
  calc _ = (s.push (wordOfPc s.advance.pc)).top.toNat := (State.readWord_toNat _ _).symm
    _ = (s.pc + 2#16).toNat := by rw [State.top_push, wordOfPc_eq, State.advance_pc]
    _ = (s.pc.toNat + 2) % 65536 := BitVec.toNat_add _ _

/-- Settles O19: the popped word is `PC` as it is. -/
theorem returnPops : Obligations.ReturnPops := by
  unfold Obligations.ReturnPops
  intro ign s
  refine ⟨_, rfl, ?_, rfl, s.frame_drop_jump _⟩
  rw [State.jump_pc, pcOfWord_eq]
  exact s.readWord_toNat _

/-- Settles O20: the return finds on top of the stack what the call pushed. -/
theorem callThenReturn : Obligations.CallThenReturn := by
  unfold Obligations.CallThenReturn
  intro nnn ign s
  refine ⟨_, _, rfl, rfl, ?_, BitVec.sub_add_cancel s.sp 2#16⟩
  calc _ = pcOfWord (s.push (wordOfPc s.advance.pc)).top := rfl
    _ = s.advance.pc := by rw [State.top_push, pcOfWord_eq, wordOfPc_eq]
    _ = s.nextPc := State.advance_pc_eq_nextPc rfl

/-- Settles O21: the two encodings are those of `encode`, and both instructions are a skip under their condition. -/
theorem skipOnImmediate : Obligations.SkipOnImmediate := by
  unfold Obligations.SkipOnImmediate
  intro x kk s
  refine ⟨decode_encode (.seImm x kk), decode_encode (.sneImm x kk),
    ⟨_, rfl, State.skipIf_pc_of_iff ?_, s.frame_skipIf _⟩, ⟨_, rfl, State.skipIf_pc_of_iff ?_, s.frame_skipIf _⟩⟩
  · rw [regOfByte_eq, beq_iff_eq]
  · rw [regOfByte_eq, bne_iff_ne]

/-- Settles O23: `JP V0, nnn` is a jump to the sum, whatever the switch and `PC`. -/
theorem jumpWithOffset : Obligations.JumpWithOffset := by
  unfold Obligations.JumpWithOffset
  intro nnn s
  exact ⟨_, rfl, pcOfAddr_add_pcOfReg_toNat nnn _, s.frame_jump _⟩

end Sys2Proof.Machine
end

section
/-! SUPPORT. Loads, additions, bitwise operations, subtractions and shifts (41_arith_logic.md R121 to R132; O24 to O30). -/

namespace Sys2Proof.Machine

/-! ### One register written, then `PC` advanced -/

section
variable (s : State) (x : Nibble) (b : Reg)

theorem State.getV_setV_advance : (s.setV x b).advance.getV x = b := s.getV_setV_self x b

/-- Nothing but `V[x]` and `PC` changes. -/
theorem State.frame_setV_advance : Frame [x] [] [] s (s.setV x b).advance := by
  refine ⟨fun r hr => ?_, fun f _ => by cases f <;> rfl, fun _ _ => rfl⟩
  exact s.getV_setV_other b (List.ne_of_not_mem_cons hr)

end

/-! ### The flag written, then the result (R121) -/

section
variable (s : State) (x y : Nibble) (c : Reg)

theorem State.vf_flagThenResult (f : State → Reg) :
    (s.flagThenResult x c f).vf = if x = flagReg then f (s.setV flagReg c) else c := by
  simp only [State.vf, State.getV_flagThenResult, if_true, eq_comm]

theorem State.getV_flagThenResult_self (f : State → Reg) :
    (s.flagThenResult x c f).getV x = f (s.setV flagReg c) := by
  rw [State.getV_flagThenResult, if_pos rfl]

/-- Nothing but `V[x]`, `VF` and `PC` changes. -/
theorem State.frame_flagThenResult (f : State → Reg) : Frame [x, flagReg] [] [] s (s.flagThenResult x c f) := by
  refine ⟨fun r hr => ?_, fun g _ => by cases g <;> rfl, fun _ _ => rfl⟩
  obtain ⟨hx, hflag⟩ : r ≠ x ∧ r ≠ flagReg := by simpa using hr
  rw [State.getV_flagThenResult, if_neg hx, if_neg hflag]

/-- `VF` after a result of one operand: with `x = F` it is that result, of the new flag. -/
theorem State.vf_flagThenResult_operand (op : Reg → Reg) :
    (s.flagThenResult x c fun t => op (t.getV x)).vf = if x = flagReg then op c else c := by
  rw [State.vf_flagThenResult]
  split
  · subst x
    rw [State.getV_setV_self]
  · rfl

/-- `V[x]` after a result of one operand. -/
theorem State.getV_flagThenResult_operand (op : Reg → Reg) (hx : x ≠ flagReg) :
    (s.flagThenResult x c fun t => op (t.getV x)).getV x = op (s.getV x) := by
  rw [State.getV_flagThenResult_self, State.getV_setV_other _ _ hx]

/-- `VF` after a result of two operands: with `x = F` it is that result, of the new flag and of `V[y]` or the new flag. -/
theorem State.vf_flagThenResult_operands (op : Reg → Reg → Reg) :
    (s.flagThenResult x c fun t => op (t.getV x) (t.getV y)).vf =
      if x = flagReg then (if y = flagReg then op c c else op c (s.getV y)) else c := by
  rw [State.vf_flagThenResult]
  split
  · subst x
    rw [State.getV_setV_self, State.getV_setV, apply_ite (op c)]
  · rfl

/-- `V[x]` after a result of two operands, of which `V[y]` may be the new flag. -/
theorem State.getV_flagThenResult_operands (op : Reg → Reg → Reg) (hx : x ≠ flagReg) :
    (s.flagThenResult x c fun t => op (t.getV x) (t.getV y)).getV x =
      if y = flagReg then op (s.getV x) c else op (s.getV x) (s.getV y) := by
  rw [State.getV_flagThenResult_self, State.getV_setV_other _ _ hx, State.getV_setV, apply_ite (op _)]

end

/-! ### Flags and results as numbers -/

section
variable (a b : Reg)

theorem flagOf_decide_toNat (p : Prop) [Decidable p] : (flagOf (decide p)).toNat = if p then 1 else 0 := by
  by_cases h : p <;> simp [flagOf, h]

theorem carryFlag_toNat : (carryFlag a b).toNat = if 255 < a.toNat + b.toNat then 1 else 0 := by
  rw [carryFlag, flagOf_decide_toNat, regMax_eq]

theorem noBorrowFlag_toNat : (noBorrowFlag a b).toNat = if b.toNat ≤ a.toNat then 1 else 0 := by
  rw [noBorrowFlag, flagOf_decide_toNat]

theorem subFlag_toNat (mode : SubFlagMode) :
    (subFlag mode a b).toNat = if mode = .sourceAlwaysOne ∨ b.toNat ≤ a.toNat then 1 else 0 := by
  cases mode with
  | noBorrow => simp [subFlag, noBorrowFlag_toNat]
  | sourceAlwaysOne => simp [subFlag]

theorem reg_add_toNat : (a + b).toNat = (a.toNat + b.toNat) % 256 := BitVec.toNat_add a b

theorem reg_sub_toNat : (a - b).toNat = (256 + a.toNat - b.toNat) % 256 := by
  have hb : b.toNat < 256 := b.isLt
  rw [BitVec.toNat_sub, two_pow_vWidth, Nat.sub_add_comm hb.le]

theorem shrFlag_toNat : (shrFlag a).toNat = a.toNat % 2 :=
  (BitVec.toNat_and a 1#8).trans (Nat.and_one_is_mod _)

theorem reg_shiftRight_one_toNat : (a >>> 1).toNat = a.toNat / 2 := by
  rw [BitVec.toNat_ushiftRight, Nat.shiftRight_eq_div_pow, pow_one]

theorem reg_shiftLeft_one_toNat : (a <<< 1).toNat = 2 * a.toNat % 256 := by
  rw [BitVec.toNat_shiftLeft, Nat.shiftLeft_eq, pow_one, two_pow_vWidth, Nat.mul_comm]

/-- The raw bit 7 is 128 times its value (R132). -/
theorem shlFlag_rawMask_toNat : (shlFlag .rawMask a).toNat = 128 * (a.toNat / 128) := by
  have ha : a.toNat < 256 := a.isLt
  have hbit : a.toNat / 128 % 2 = a.toNat / 128 := Nat.mod_eq_of_lt (by omega)
  calc (shlFlag .rawMask a).toNat = a.toNat &&& 2 ^ 7 := by rw [shlFlag, regTopBit_eq, BitVec.toNat_and]; rfl
    _ = a.toNat / 2 ^ 7 % 2 * 2 ^ 7 := by rw [Nat.and_two_pow, Nat.toNat_testBit]
    _ = 128 * (a.toNat / 128 % 2) := Nat.mul_comm _ _
    _ = 128 * (a.toNat / 128) := by rw [hbit]

theorem shlFlag_normalized_toNat : (shlFlag .normalized a).toNat = a.toNat / 128 :=
  (BitVec.toNat_ushiftRight a 7).trans (Nat.shiftRight_eq_div_pow _ 7)

end

/-! ### The obligations -/

/-- Settles O27: the sum is of the operands read after the carry is in `VF`; the carry doubled fits a register. -/
theorem addWithCarry : Obligations.AddWithCarry := by
  unfold Obligations.AddWithCarry
  rintro x y s a b c rfl rfl hc
  rw [← carryFlag_toNat] at hc
  refine ⟨_, rfl, ?_, fun hx => ?_, rfl, s.frame_flagThenResult _ _ _⟩
  · rw [s.vf_flagThenResult_operands x y _ (· + ·), hc]
    split_ifs
    · rw [reg_add_toNat, carryFlag_toNat]
      split <;> rfl
    · exact reg_add_toNat _ _
    · rfl
  · rw [s.getV_flagThenResult_operands x y _ (· + ·) hx, hc]
    split_ifs <;> exact reg_add_toNat _ _

/-- Settles O28: the difference is of the operands read after the flag is in `VF`. -/
theorem subtract : Obligations.Subtract := by
  unfold Obligations.Subtract
  rintro x y s a b c rfl rfl hc
  rw [← subFlag_toNat] at hc
  refine ⟨_, rfl, ?_, fun hx => ?_, rfl, s.frame_flagThenResult _ _ _⟩
  · rw [s.vf_flagThenResult_operands x y _ (· - ·), hc]
    split_ifs
    · rw [BitVec.sub_self]; rfl
    · exact reg_sub_toNat _ _
    · rfl
  · rw [s.getV_flagThenResult_operands x y _ (· - ·) hx, hc]
    split_ifs <;> exact reg_sub_toNat _ _

/-- Settles O29: as `SUB`, with the operands exchanged and the flag of no borrow under every configuration. -/
theorem reverseSubtract : Obligations.ReverseSubtract := by
  unfold Obligations.ReverseSubtract
  rintro x y s a b c rfl rfl hc
  rw [← noBorrowFlag_toNat] at hc
  refine ⟨_, rfl, ?_, fun hx => ?_, rfl, s.frame_flagThenResult _ _ _⟩
  · rw [s.vf_flagThenResult_operands x y _ fun p q => q - p, hc]
    split_ifs
    · rw [BitVec.sub_self]; rfl
    · exact reg_sub_toNat _ _
    · rfl
  · rw [s.getV_flagThenResult_operands x y _ (fun p q => q - p) hx, hc]
    split_ifs <;> exact reg_sub_toNat _ _

/-- Settles O30: with `x = F` the flag just written is shifted, which leaves nothing of a low bit shifted right or of a raw
high bit shifted left. -/
theorem shifts : Obligations.Shifts := by
  unfold Obligations.Shifts
  rintro x y s a rfl
  refine ⟨⟨_, rfl, ?_, fun hx => ?_, rfl, s.frame_flagThenResult _ _ _⟩,
    ⟨_, rfl, ?_, fun hx => ?_, rfl, s.frame_flagThenResult _ _ _⟩⟩
  · rw [s.vf_flagThenResult_operand x _ (· >>> 1)]
    split_ifs
    · rw [reg_shiftRight_one_toNat, shrFlag_toNat]
      omega
    · exact shrFlag_toNat _
  · rw [s.getV_flagThenResult_operand x _ (· >>> 1) hx, reg_shiftRight_one_toNat]
  · rw [s.vf_flagThenResult_operand x _ (· <<< 1)]
    have ha : (s.getV x).toNat < 256 := (s.getV x).isLt
    cases s.cfg.shlFlagMode with
    | rawMask =>
      dsimp only
      split_ifs
      · rw [reg_shiftLeft_one_toNat, shlFlag_rawMask_toNat]
        omega
      · exact shlFlag_rawMask_toNat _
    | normalized =>
      dsimp only
      split_ifs
      · rw [reg_shiftLeft_one_toNat, shlFlag_normalized_toNat]
        omega
      · exact shlFlag_normalized_toNat _
  · rw [s.getV_flagThenResult_operand x _ (· <<< 1) hx, reg_shiftLeft_one_toNat]

/-- Settles O24: the two encodings are those of `encode`, and both instructions write the operand to `V[x]`. -/
theorem loadRegister : Obligations.LoadRegister := by
  unfold Obligations.LoadRegister
  intro x y kk s
  refine ⟨decode_encode (.ldImm x kk), decode_encode (.ldReg x y), ⟨_, rfl, ?_, rfl, s.frame_setV_advance _ _⟩,
    ⟨_, rfl, s.getV_setV_advance _ _, rfl, s.frame_setV_advance _ _⟩⟩
  rw [State.getV_setV_advance, regOfByte_eq]

/-- Settles O25: a sum of registers is taken mod 256. -/
theorem addImmediate : Obligations.AddImmediate := by
  unfold Obligations.AddImmediate
  intro x kk s
  refine ⟨_, rfl, ?_, rfl, s.frame_setV_advance _ _⟩
  rw [State.getV_setV_advance, regOfByte_eq, reg_add_toNat]

/-- Settles O26: the bits of `|||`, `&&&` and `^^^` on bit vectors. -/
theorem bitwiseLogic : Obligations.BitwiseLogic := by
  unfold Obligations.BitwiseLogic
  intro x y s
  refine ⟨⟨_, rfl, fun j => ?_, rfl, s.frame_setV_advance _ _⟩,
    ⟨_, rfl, fun j => ?_, rfl, s.frame_setV_advance _ _⟩,
    ⟨_, rfl, fun j => ?_, rfl, s.frame_setV_advance _ _⟩⟩
  · rw [State.getV_setV_advance, BitVec.getLsbD_or]
  · rw [State.getV_setV_advance, BitVec.getLsbD_and]
  · rw [State.getV_setV_advance, BitVec.getLsbD_xor]

end Sys2Proof.Machine
end

section
/-! SUPPORT. The index register, the decimal digits, the bulk store and load (42_memory_index.md R150 to R156; O31 to O36). -/

namespace Sys2Proof.Machine

/-! ### Frames -/

/-- Nothing but `I` and `PC` changes. -/
theorem State.frame_setI_advance (s : State) (a : IndexReg) : Frame [] [.i] [] s { s with i := a }.advance := by
  refine .of_kept rfl rfl fun f hf => ?_
  cases f with
  | i => simp at hf
  | _ => rfl

/-- The frame of a change of memory alone, before `PC` advances. -/
theorem Frame.of_only_mem {s t : State} {stored : List Nat} (honly : t = { s with mem := t.mem })
    (hbytes : ∀ a, (∀ b ∈ stored, a % memSize ≠ b % memSize) → t.readByte a = s.readByte a) :
    Frame [] [] stored s t.advance := by
  refine ⟨fun r _ => ?_, fun f _ => ?_, hbytes⟩
  · rw [honly]; rfl
  · rw [honly]; cases f <;> rfl

section
variable (s : State)

/-- The bulk store changes the bytes at `I` to `I + (n - 1)` alone (R154). -/
theorem State.frame_storeRegs_advance (n : Nat) :
    Frame [] [] ((List.range n).map s.indexAddr) s (s.storeRegs n).advance :=
  .of_only_mem (s.storeRegs_only n) fun _ hout =>
    s.readByte_storeRegs_other fun _ hj => hout _ (List.mem_map_of_mem (List.mem_range.2 hj))

/-- Bytes written from `I` on change the bytes at those addresses alone. -/
theorem State.frame_writeBytes_advance (bs : List Byte) :
    Frame [] [] ((List.range bs.length).map s.indexAddr) s (s.writeBytes (s.indexAddr 0) bs).advance :=
  .of_only_mem (s.writeBytes_only _ bs) fun _ hout =>
    s.readByte_writeBytes_other bs fun _ hj => hout _ (List.mem_map_of_mem (List.mem_range.2 hj))

/-- The bulk load changes the registers `V0` to `Vx` alone (R155). -/
theorem State.frame_loadRegs_advance (x : Nibble) :
    Frame (destRegs (.ldVxMem x)) [] [] s (s.loadRegs (x.toNat + 1)).advance := by
  refine ⟨fun r hr => ?_, fun f _ => ?_, fun _ _ => State.readByte_congr (s.loadRegs_mem _) _⟩
  · exact (s.getV_loadRegs x.isLt r).trans (if_neg (mt mem_destRegs_ldVxMem.2 hr))
  · rw [State.loadRegs_only]; cases f <;> rfl

end

/-! ### Derived values as numbers -/

section
variable (v : Reg)

theorem glyphAddr_toNat : (glyphAddr v).toNat = 5 * (v.toNat % 16) := by
  have hlow : (v &&& 0x0F#8).toNat = v.toNat % 16 :=
    (BitVec.toNat_and v 0x0F#8).trans (Nat.and_two_pow_sub_one_eq_mod v.toNat 4)
  rw [glyphAddr, BitVec.toNat_ofNat, hlow, fontBase, fontGlyphBytes, Nat.zero_add]
  exact Nat.mod_eq_of_lt (by simp only [two_pow_iWidth]; omega)

theorem hundreds_toNat : (hundreds v).toNat = v.toNat / 100 :=
  Nat.mod_eq_of_lt ((Nat.div_le_self _ _).trans_lt v.isLt)

theorem tens_toNat : (tens v).toNat = v.toNat / 10 % 10 := Nat.mod_eq_of_lt (by omega)

theorem ones_toNat : (ones v).toNat = v.toNat % 10 := Nat.mod_eq_of_lt (by omega)

end

/-! ### The obligations -/

/-- Settles O33: three bytes written in a row do not overlap in a memory of 4096, so each is the digit read back. -/
theorem decimalDigits : Obligations.DecimalDigits := by
  unfold Obligations.DecimalDigits
  intro x s
  have hdigit {j : Nat} (hj : j < 3) := s.readByte_writeBytes_self (s.indexAddr 0)
    [hundreds (s.getV x), tens (s.getV x), ones (s.getV x)] (show 3 ≤ memSize by decide) hj
  refine ⟨decode_encode (.ldB x), _, rfl, ?_, ?_, ?_, congrArg (· + 2#16) (s.writeBytes_pc _ _),
    s.frame_writeBytes_advance _⟩
  · exact (congrArg BitVec.toNat (hdigit (j := 0) (by decide))).trans (hundreds_toNat _)
  · exact (congrArg BitVec.toNat (hdigit (j := 1) (by decide))).trans (tens_toNat _)
  · exact (congrArg BitVec.toNat (hdigit (j := 2) (by decide))).trans (ones_toNat _)

/-- Settles O34: `x + 1` addresses in a row are distinct mod 4096, so no later store of the loop overwrites an earlier one. -/
theorem bulkStore : Obligations.BulkStore := by
  unfold Obligations.BulkStore
  intro x s
  refine ⟨_, rfl, fun r hr => ?_, State.advance_pc_eq_nextPc (s.storeRegs_pc _), s.frame_storeRegs_advance _⟩
  have hstored : (s.storeRegs (x.toNat + 1)).readByte (s.indexAddr r.toNat) = s.getV (BitVec.ofNat 4 r.toNat) :=
    s.readByte_storeRegs_self x.isLt (Nat.lt_succ_of_le hr)
  rwa [BitVec.ofNat_toNat, BitVec.setWidth_eq] at hstored

/-- Settles O35: the loop writes registers alone, so each data byte is the one in memory before it. -/
theorem bulkLoad : Obligations.BulkLoad := by
  unfold Obligations.BulkLoad
  intro x s
  refine ⟨_, rfl, fun r => ?_, State.advance_pc_eq_nextPc (s.loadRegs_pc _), s.frame_loadRegs_advance x⟩
  simp only [← Nat.lt_succ_iff]
  exact s.getV_loadRegs x.isLt r

/-- Settles O36, from O34 and O35: the store keeps `I`, and the load reads memory and `I` alone. -/
theorem storeThenLoadRestores : Obligations.StoreThenLoadRestores := by
  unfold Obligations.StoreThenLoadRestores
  intro x s v
  obtain ⟨t, hstore, hstored, -, -, hfields, -⟩ := bulkStore x s
  obtain ⟨u, hload, hloaded, -⟩ := bulkLoad x { t with v := v }
  have hindex : t.i = s.i := hfields .i List.not_mem_nil
  refine ⟨t, u, hstore, hload, fun r hr => ?_⟩
  calc u.getV r = t.readByte (t.indexAddr r.toNat) := (hloaded r).trans (if_pos hr)
    _ = t.readByte (s.indexAddr r.toNat) := by rw [State.indexAddr, State.indexAddr, hindex]
    _ = s.getV r := hstored r hr

/-- Settles O31: the address is zero-extended into `I`. -/
theorem loadIndex : Obligations.LoadIndex := by
  unfold Obligations.LoadIndex
  intro nnn s
  exact ⟨decode_encode (.ldI nnn), _, rfl, indexOfAddr_toNat nnn, rfl, s.frame_setI_advance _⟩

/-- Settles O32: both instructions write `I` alone, the one a 16-bit sum and the other the address of a glyph. -/
theorem addIndexAndGlyph : Obligations.AddIndexAndGlyph := by
  unfold Obligations.AddIndexAndGlyph
  intro x s
  refine ⟨⟨_, rfl, ?_, rfl, s.frame_setI_advance _⟩, ⟨_, rfl, glyphAddr_toNat _, rfl, s.frame_setI_advance _⟩⟩
  calc (s.i + indexOfReg (s.getV x)).toNat
      = (s.i.toNat + (indexOfReg (s.getV x)).toNat) % 65536 := BitVec.toNat_add _ _
    _ = (s.i.toNat + (s.getV x).toNat) % 65536 := by rw [indexOfReg_toNat]

end Sys2Proof.Machine
end

section
/-! SUPPORT. The random byte, the timer registers and the blocking key read, with the moves of the timer driver and of the
host that it waits through (43_io_timers.md R170 to R174; 60_exceptions.md R229, R233, R236; O38 to O42). -/

namespace Sys2Proof.Machine

/-! ### The moves of the timer driver and of the host -/

section
variable {s : State} {k : Byte}

theorem State.nextMove_of_cons {m : Move} {rest : List Move} (h : s.schedule = m :: rest) : s.nextMove = m := by
  rw [State.nextMove, h]

theorem step_tick (hload : s.loadError = false) (hmove : s.nextMove = .tick) : step s = .next s.popMove.tick := by
  simp [step, moveStep, hmove, hload]

theorem step_key (hload : s.loadError = false) (hmove : s.nextMove = .key k) :
    step s = .next (s.popMove.offerKey k) := by
  simp [step, moveStep, hmove, hload]

/-- A key completes a wait (R171 step 2). -/
theorem State.offerKey_of_waitKey (h : s.status = .waitKey) :
    s.offerKey k = ({ s.setV s.waitX k with status := .run } : State).advance := by
  simp [State.offerKey, h]

/-- At any other time a key is not taken (R233). -/
theorem State.offerKey_of_not_waitKey (h : s.status ≠ .waitKey) : s.offerKey k = s := by
  unfold State.offerKey
  split
  · next hw => exact absurd hw h
  all_goals rfl

/-- The move that offers a waiting engine the key leaves it behind its `LD Vx, K` (R171 step 2). -/
theorem step_key_of_waitKey {rest : List Move} (hload : s.loadError = false) (hwait : s.status = .waitKey)
    (hsched : s.schedule = .key k :: rest) :
    step s = .next ({ s.popMove.setV s.waitX k with status := .run } : State).advance := by
  rw [step_key hload (State.nextMove_of_cons hsched), State.offerKey_of_waitKey (s := s.popMove) hwait]
  rfl

/-- A running engine at `LD Vx, K` issues the read (R171 step 1). -/
theorem step_ldVxK {x : Nibble} (hload : s.loadError = false) (hmove : s.nextMove = .engine) (hrun : s.status = .run)
    (hdec : decode s.fetchWord = .named (.ldVxK x)) :
    step s = .next { s.popMove with waitX := x, status := .waitKey } :=
  stepRunsDecodedInstruction s _ hload hmove hrun hdec

theorem steps_succ {t : State} (h : step s = .next t) (n : Nat) : steps (n + 1) s = steps n t := by
  rw [steps, h]

end

/-- A timer goes one down and stops at zero (R229). -/
theorem countDown_toNat (t : Timer) : (countDown t).toNat = t.toNat - 1 := by
  unfold countDown
  split
  · next hpos => exact BitVec.toNat_sub_of_le (BitVec.le_def.2 hpos)
  · omega

/-- `n` ticks in a row take both timers down by `n`, and the run goes on from there with nothing else changed but `redraw` and
the schedule (R229, R231). -/
theorem steps_ticks {s : State} {n : Nat} {rest : List Move} (hload : s.loadError = false)
    (hsched : s.schedule = List.replicate n .tick ++ rest) (m : Nat) :
    ∃ d u r, steps (n + m) s = steps m { s.withTimers d u r with schedule := rest } ∧
      d.toNat = s.dt.toNat - n ∧ u.toNat = s.st.toNat - n := by
  induction n generalizing s with
  | zero =>
    obtain rfl : s.schedule = rest := hsched
    exact ⟨s.dt, s.st, s.redraw, by rw [Nat.zero_add]; rfl, rfl, rfl⟩
  | succ n ih =>
    have hcons : s.schedule = .tick :: (List.replicate n .tick ++ rest) := hsched
    have htick := step_tick hload (State.nextMove_of_cons hcons)
    have htail : s.popMove.tick.schedule = List.replicate n .tick ++ rest := congrArg List.tail hcons
    obtain ⟨d, u, r, hrun, hd, hu⟩ := ih (s := s.popMove.tick) hload htail
    refine ⟨d, u, r, ?_, ?_, ?_⟩
    · rw [Nat.add_right_comm, steps_succ htick]
      exact hrun
    · rw [hd, State.tick_dt, countDown_toNat, State.popMove_dt]
      omega
    · rw [hu, State.tick_st, countDown_toNat, State.popMove_st]
      omega

/-- While the engine waits, ticks go on as ever, and the key offered after them completes the read. -/
theorem steps_ticks_key {s : State} {n : Nat} {k : Byte} {rest : List Move} (hload : s.loadError = false)
    (hwait : s.status = .waitKey) (hsched : s.schedule = List.replicate n .tick ++ .key k :: rest) :
    ∃ d u r, steps (n + 1) s =
        .next ({ ({ s.withTimers d u r with schedule := rest } : State).setV s.waitX k with
          status := .run } : State).advance ∧
      d.toNat = s.dt.toNat - n := by
  obtain ⟨d, u, r, hticks, hd, -⟩ := steps_ticks hload hsched 1
  have hkey := step_key_of_waitKey (s := { s.withTimers d u r with schedule := .key k :: rest }) hload hwait rfl
  exact ⟨d, u, r, hticks.trans (steps_succ hkey 0), hd⟩

/-! ### The obligations -/

/-- Settles O42: the issue of R171, the ticks while the engine waits, and the key that completes the wait. -/
theorem blockingReadWithTicks : Obligations.BlockingReadWithTicks := by
  unfold Obligations.BlockingReadWithTicks
  intro n x k rest s hload hrun hdec hsched
  have hissue := step_ldVxK hload (State.nextMove_of_cons hsched) hrun hdec
  have htail : s.popMove.schedule = List.replicate n .tick ++ .key k :: rest := congrArg List.tail hsched
  obtain ⟨d, u, r, hread, hd⟩ :=
    steps_ticks_key (s := { s.popMove with waitX := x, status := .waitKey }) hload rfl htail
  have hsteps := (steps_succ hissue (n + 1)).trans hread
  exact ⟨_, hsteps, State.getV_setV_self _ x k, rfl, rfl, hd, rfl, fun _ hr => State.getV_setV_other _ k hr⟩

/-- Settles O38: the encodings are those of `encode`; a register and a timer have the same width. -/
theorem timerRegisters : Obligations.TimerRegisters := by
  unfold Obligations.TimerRegisters
  intro x s
  refine ⟨decode_encode (.ldVxDt x), decode_encode (.ldDtVx x), decode_encode (.ldStVx x), ⟨_, rfl, ?_, rfl,
      s.frame_setV_advance _ _⟩,
    ⟨_, rfl, timerOfReg_eq _, rfl, .of_kept rfl rfl fun f hf => ?_⟩,
    ⟨_, rfl, timerOfReg_eq _, rfl, ?_, .of_kept rfl rfl fun f hf => ?_⟩, bne_iff_ne⟩
  · rw [State.getV_setV_advance, regOfTimer_eq]
  · cases f with
    | dt => simp at hf
    | _ => rfl
  · exact timerOfReg_eq (s.getV x) ▸ bne_iff_ne
  · cases f with
    | st => simp at hf
    | _ => rfl

/-- Settles O39: a bit outside `kk` is a bit ANDed with 0, whatever the byte. -/
theorem randomByteIsMasked : Obligations.RandomByteIsMasked := by
  unfold Obligations.RandomByteIsMasked
  intro x kk s
  have hvalue : (s.drawNext.setV x (regOfByte (s.randomByte &&& kk))).advance.getV x = s.randomByte &&& kk := by
    rw [State.getV_setV_advance, regOfByte_eq]
  refine ⟨_, rfl, ⟨s.randomByte, rfl, hvalue⟩, fun j hj => ?_, rfl, rfl, fun r hr => ?_, fun f hf => ?_, fun _ _ => rfl⟩
  · rw [hvalue, BitVec.getLsbD_and, hj, Bool.and_false]
  · exact s.drawNext.getV_setV_other _ (List.ne_of_not_mem_cons hr)
  · cases f with
    | draws => simp at hf
    | _ => rfl

/-- Settles O40: the issue writes `status` and `wait_x` alone. -/
theorem keyReadIssues : Obligations.KeyReadIssues := by
  unfold Obligations.KeyReadIssues
  intro x s
  refine ⟨_, rfl, rfl, rfl, rfl, .of_kept rfl rfl fun f hf => ?_⟩
  cases f with
  | status | waitX => simp at hf
  | _ => rfl

/-- Settles O41: the offer meets the state without its move, which has the same status. -/
theorem keyCompletesOnlyAWait : Obligations.KeyCompletesOnlyAWait := by
  unfold Obligations.KeyCompletesOnlyAWait
  intro s k hload hmove
  rw [step_key hload hmove]
  refine ⟨fun hwait => ?_, fun hne => congrArg Host.Outcome.next (State.offerKey_of_not_waitKey hne)⟩
  rw [State.offerKey_of_waitKey (s := s.popMove) hwait]
  refine ⟨_, rfl, State.getV_setV_self _ s.waitX k, rfl, rfl, fun r hr => ?_, fun f hf => ?_, fun _ _ => rfl⟩
  · exact s.popMove.getV_setV_other k (List.ne_of_not_mem_cons hr)
  · cases f with
    | status | schedule => simp at hf
    | _ => rfl

end Sys2Proof.Machine
end

section
/-! SUPPORT. The sprite draw as one XOR of a mask of pixels, and its edge (44_display.md R191 to R193; O47 to O49). -/

namespace Sys2Proof.Machine

/-! ### The XOR of a mask of pixels, with its collision -/

/-- `t` shows the pixels of `s` XOR the mask `p`, and its `VF` is 1 where that cleared a set pixel, else kept. -/
def XorsBy (p : Nat → Nat → Bool) (s t : State) : Prop :=
  (∀ y x, Framebuffer.pixel t.fb y x = (Framebuffer.pixel s.fb y x != p y x)) ∧
  ((∃ y x, Framebuffer.pixel s.fb y x = true ∧ p y x = true) → t.vf = 0x01#8) ∧
  ((¬∃ y x, Framebuffer.pixel s.fb y x = true ∧ p y x = true) → t.vf = s.vf)

section
variable {p q m : Nat → Nat → Bool} {s t u : State}

/-- The empty mask. -/
theorem XorsBy.refl (h : ∀ y x, m y x = false) : XorsBy m s s := by
  simp [XorsBy, h]

/-- Two XORs in a row are one with both masks, as long as no pixel is in both: the second then meets the pixels that the
first met, and a collision of either shows in the end. -/
theorem XorsBy.trans (hst : XorsBy p s t) (htu : XorsBy q t u) (hdisj : ∀ y x, p y x = true → q y x = false)
    (hm : ∀ y x, m y x = (p y x || q y x)) : XorsBy m s u := by
  obtain ⟨hpix, hhit, hmiss⟩ := hst
  obtain ⟨hpix', hhit', hmiss'⟩ := htu
  have hkeep : ∀ y x, q y x = true → Framebuffer.pixel t.fb y x = Framebuffer.pixel s.fb y x := fun y x hq => by
    have hp : p y x = false := Bool.eq_false_iff.2 fun hp => by simp [hdisj y x hp] at hq
    simp [hpix, hp]
  refine ⟨fun y x => ?_, ?_, fun hno => ?_⟩
  · rw [hpix', hpix, hm]
    cases hp : p y x with
    | false => simp
    | true => simp [hdisj y x hp]
  · rintro ⟨y, x, hset, hxor⟩
    by_cases hsecond : ∃ y x, Framebuffer.pixel t.fb y x = true ∧ q y x = true
    · exact hhit' hsecond
    · rw [hmiss' hsecond]
      refine hhit ⟨y, x, hset, Bool.of_not_eq_false fun hp => hsecond ⟨y, x, ?_⟩⟩
      have hq : q y x = true := by simpa [hm, hp] using hxor
      exact ⟨(hkeep y x hq).trans hset, hq⟩
  · rw [hmiss', hmiss]
    · exact fun ⟨y, x, hset, hp⟩ => hno ⟨y, x, hset, by simp [hm, hp]⟩
    · exact fun ⟨y, x, hset, hq⟩ => hno ⟨y, x, (hkeep y x hq).symm.trans hset, by simp [hm, hq]⟩

/-- One bit of a sprite: a 1 flips its pixel, a 0 is transparent (R191, R192). -/
theorem State.xorsBy_pixelXor (s : State) {yy xx : Nat} (hy : yy < screenH) (hx : xx < screenW) (bit : Bool) :
    XorsBy (fun y x => decide (y = yy ∧ x = xx) && bit) s (if bit then s.pixelXor yy xx else s) := by
  cases bit with
  | false => exact .refl fun y x => Bool.and_false _
  | true =>
    have hvf := s.getV_pixelXor yy xx flagReg
    refine ⟨fun y x => ?_, ?_, fun hno => ?_⟩
    · rw [if_pos rfl, s.pixel_pixelXor _ _ _ _ hy hx]
      by_cases h : y = yy ∧ x = xx
      · simp [h]
      · simp [h]
    · rintro ⟨y, x, hset, hxor⟩
      obtain ⟨rfl, rfl⟩ : y = yy ∧ x = xx := by simpa using hxor
      exact hvf.trans (if_pos ⟨rfl, hset⟩)
    · exact hvf.trans (if_neg fun h => hno ⟨yy, xx, h.2, by simp⟩)

end

/-! ### The edge -/

section
variable {edge : DrawEdge} {a b : Nat}

theorem inCol_lt (h : inCol edge a = true) : a < screenW := by
  cases edge <;> simp [inCol, screenW] at h ⊢ <;> omega

theorem inRow_lt (h : inRow edge a = true) : a < screenH := by
  cases edge <;> simp [inRow, screenH] at h ⊢ <;> omega

/-- What lies beyond a column that is cut off is cut off too. -/
theorem inCol_false_of_le (h : inCol edge a = false) (hab : a ≤ b) : inCol edge b = false := by
  cases edge <;> simp [inCol] at h ⊢ <;> omega

theorem inRow_false_of_le (h : inRow edge a = false) (hab : a ≤ b) : inRow edge b = false := by
  cases edge <;> simp [inRow] at h ⊢ <;> omega

end

/-! ### The loops over columns and rows -/

/-- The columns that `drawCols` flips: those of the 1 bits of the sprite byte from bit column `c` on. -/
def colsMask (edge : DrawEdge) (b : Byte) (x0 c left x : Nat) : Bool :=
  decide (x0 + c ≤ x ∧ x < x0 + c + left) && inCol edge x && spriteBit b (x - x0)

/-- The pixels that `drawRows` flips: those of the sprite rows from row `r` on, `byte k` being the byte of row `k`. -/
def rowsMask (edge : DrawEdge) (byte : Nat → Byte) (x0 y0 r left y x : Nat) : Bool :=
  decide (y0 + r ≤ y ∧ y < y0 + r + left) && inRow edge y && colsMask edge (byte (y - y0)) x0 0 8 x

section
variable {edge : DrawEdge} {x0 y0 c r left : Nat}

theorem colsMask_succ {b : Byte} (hin : inCol edge (x0 + c) = true) (x : Nat) :
    colsMask edge b x0 c (left + 1) x = (decide (x = x0 + c) && spriteBit b c || colsMask edge b x0 (c + 1) left x) := by
  unfold colsMask
  by_cases hx : x = x0 + c
  · simp [hx, hin]
  · have hiff : (x0 + c ≤ x ∧ x < x0 + c + (left + 1)) ↔ (x0 + (c + 1) ≤ x ∧ x < x0 + (c + 1) + left) := by omega
    simp [hx, hiff]

theorem colsMask_of_cut {b : Byte} (hcut : inCol edge (x0 + c) = false) (x : Nat) :
    colsMask edge b x0 c left x = false := by
  by_cases hx : x0 + c ≤ x
  · simp [colsMask, inCol_false_of_le hcut hx]
  · simp [colsMask, hx]

theorem rowsMask_succ {byte : Nat → Byte} (hin : inRow edge (y0 + r) = true) (y x : Nat) :
    rowsMask edge byte x0 y0 r (left + 1) y x =
      (decide (y = y0 + r) && colsMask edge (byte r) x0 0 8 x || rowsMask edge byte x0 y0 (r + 1) left y x) := by
  unfold rowsMask
  by_cases hy : y = y0 + r
  · simp [hy, hin]
  · have hiff : (y0 + r ≤ y ∧ y < y0 + r + (left + 1)) ↔ (y0 + (r + 1) ≤ y ∧ y < y0 + (r + 1) + left) := by omega
    simp [hy, hiff]

theorem rowsMask_of_cut {byte : Nat → Byte} (hcut : inRow edge (y0 + r) = false) (y x : Nat) :
    rowsMask edge byte x0 y0 r left y x = false := by
  by_cases hy : y0 + r ≤ y
  · simp [rowsMask, inRow_false_of_le hcut hy]
  · simp [rowsMask, hy]

end

/-- The data bytes depend on `I` and on what memory reads as (R156). -/
theorem State.dataByte_congr {s t : State} (hi : t.i = s.i) (hread : ∀ a, t.readByte a = s.readByte a) :
    t.dataByte = s.dataByte :=
  funext fun k => by rw [State.dataByte, State.dataByte, State.indexAddr, State.indexAddr, hi, hread]

theorem State.xorsBy_drawCols (s : State) (b : Byte) {yy : Nat} (x0 c left : Nat) (hy : yy < screenH) :
    XorsBy (fun y x => decide (y = yy) && colsMask s.cfg.drawEdge b x0 c left x) s (s.drawCols b yy x0 c left) := by
  induction left generalizing s c with
  | zero => exact .refl fun y x => by simp [colsMask]
  | succ left ih =>
    rw [State.drawCols]
    split
    · next hin =>
      have hfirst := s.xorsBy_pixelXor hy (inCol_lt hin) (spriteBit b c)
      have hcfg : (if spriteBit b c then s.pixelXor yy (x0 + c) else s).cfg = s.cfg := by
        split
        · exact s.pixelXor_cfg _ _
        · rfl
      refine hfirst.trans (hcfg ▸ ih _ (c + 1)) (fun y x h => ?_) fun y x => ?_
      · obtain ⟨⟨rfl, rfl⟩, -⟩ : (y = yy ∧ x = x0 + c) ∧ spriteBit b c = true := by simpa using h
        simp [colsMask]
      · rw [colsMask_succ hin, Bool.and_or_distrib_left, Bool.decide_and, Bool.and_assoc]
    · next hcut => exact .refl fun y x => by simp [colsMask_of_cut (Bool.eq_false_iff.2 hcut)]

theorem State.xorsBy_drawRows (s : State) (x0 y0 r left : Nat) :
    XorsBy (rowsMask s.cfg.drawEdge s.dataByte x0 y0 r left) s (s.drawRows x0 y0 r left) := by
  induction left generalizing s r with
  | zero => exact .refl fun y x => by simp [rowsMask]
  | succ left ih =>
    rw [State.drawRows]
    split
    · next hin =>
      have hfirst := s.xorsBy_drawCols (s.dataByte r) x0 0 8 (inRow_lt hin)
      have hrest := ih (s.drawCols (s.dataByte r) (y0 + r) x0 0 8) (r + 1)
      rw [State.drawCols_cfg, State.dataByte_congr (s.drawCols_i ..) (State.readByte_congr (s.drawCols_mem ..))] at hrest
      refine hfirst.trans hrest (fun y x h => ?_) (rowsMask_succ hin)
      obtain ⟨rfl, -⟩ : y = y0 + r ∧ _ := by simpa using h
      simp [rowsMask]
    · next hcut => exact .refl (rowsMask_of_cut (Bool.eq_false_iff.2 hcut))

/-! ### The instruction -/

theorem rowsMask_eq_drawsAt (s : State) (vx vy : Reg) (n : Nibble) :
    rowsMask s.cfg.drawEdge s.dataByte (startCol vx) (startRow vy) 0 n.toNat = drawsAt s vx vy n := by
  funext y x
  simp [rowsMask, colsMask, drawsAt, Bool.decide_and, Bool.and_assoc]

/-- `DRW` XORs its sprite into the screen from the state whose `VF` is cleared (R191). -/
theorem State.xorsBy_drw (s : State) (x y n : Nibble) :
    XorsBy (drawsAt s (s.getV x) (s.getV y) n) (s.setV flagReg 0#vWidth)
      ((s.setV flagReg 0#vWidth).drawRows (startCol (s.getV x)) (startRow (s.getV y)) 0 n.toNat) :=
  rowsMask_eq_drawsAt s _ _ n ▸ (s.setV flagReg 0#vWidth).xorsBy_drawRows _ _ 0 _

/-- `DRW` changes `VF`, the framebuffer, `redraw` and `PC` alone (R191, R192). -/
theorem frame_drw {x y n : Nibble} {s t : State} (h : exec (.drw x y n) s = .next t) :
    Frame [flagReg] [.fb, .redraw] [] s t := by
  have honly : t = { s with pc := t.pc, v := t.v, fb := t.fb, redraw := t.redraw } := exec_only h
  refine ⟨fun r hr => exec_getV h List.not_mem_nil fun hf => List.ne_of_not_mem_cons hr hf.1, fun f hf => ?_, fun a _ => ?_⟩
  · rw [honly]
    cases f with
    | fb | redraw => simp at hf
    | _ => rfl
  · exact State.readByte_congr (by rw [honly]) a

/-- Where a sprite lies on the screen depends on memory, `I` and the edge alone. -/
theorem drawsAt_of_frame {regs : List Nibble} {fields : List Field} {s t : State} (h : Frame regs fields [] s t)
    (hi : Field.i ∉ fields) (hcfg : Field.cfg ∉ fields) : drawsAt t = drawsAt s := by
  obtain ⟨-, hfields, hmem⟩ := h
  have hedge : t.cfg = s.cfg := hfields .cfg hcfg
  have hbytes : t.dataByte = s.dataByte := State.dataByte_congr (hfields .i hi) fun a => hmem a (by simp)
  funext vx vy n y x
  simp only [drawsAt, hedge, hbytes]

/-! ### The obligations -/

/-- Settles O47: the draw from the cleared `VF` is the XOR of a mask, which leaves `VF` 0 where nothing was cleared. -/
theorem drawIsXorOfSprite : Obligations.DrawIsXorOfSprite := by
  unfold Obligations.DrawIsXorOfSprite
  intro x y n s
  obtain ⟨hpix, hhit, hmiss⟩ := s.xorsBy_drw x y n
  exact ⟨_, rfl, hpix, hhit, fun hno => (hmiss hno).trans (s.getV_setV_self flagReg _), rfl,
    State.advance_pc_eq_nextPc (State.drawRows_pc ..), frame_drw rfl⟩

/-- Settles O48: column 63 and row 31 are past the edge under `EXCLUSIVE`, so the sprite has no pixel to flip there. -/
theorem exclusiveEdgeIsNeverDrawn : Obligations.ExclusiveEdgeIsNeverDrawn := by
  unfold Obligations.ExclusiveEdgeIsNeverDrawn
  intro x y n s hedge
  obtain ⟨t, hexec, hpix, -⟩ := drawIsXorOfSprite x y n s
  have hcol : inCol s.cfg.drawEdge 63 = false := by rw [hedge]; rfl
  have hrow : inRow s.cfg.drawEdge 31 = false := by rw [hedge]; rfl
  refine ⟨t, hexec, fun p => ⟨?_, ?_⟩⟩
  · simp [hpix, drawsAt, hcol]
  · simp [hpix, drawsAt, hrow]

/-- Settles O49: the second draw has the mask of the first, so it undoes the XOR, and the set pixels it clears are those
that the first draw set. -/
theorem drawTwiceErases : Obligations.DrawTwiceErases := by
  unfold Obligations.DrawTwiceErases
  intro x y n s hx hy
  obtain ⟨t, ht, hpix, -, -, -, -, hframe⟩ := drawIsXorOfSprite x y n s
  obtain ⟨u, hu, hpix', hhit', hmiss', -⟩ := drawIsXorOfSprite x y n t
  have ⟨hregs, _, _⟩ := hframe
  have hmask : drawsAt t (t.getV x) (t.getV y) n = drawsAt s (s.getV x) (s.getV y) n := by
    rw [drawsAt_of_frame hframe (by decide) (by decide), hregs x (by simpa using hx), hregs y (by simpa using hy)]
  rw [hmask] at hpix' hhit' hmiss'
  refine ⟨t, u, ht, hu, Framebuffer.ext_pixel fun py px => ?_, fun hvf => ?_, ?_⟩
  · rw [hpix', hpix, Bool.bne_assoc, bne_self_eq_false, Bool.bne_false]
  · by_contra hnone
    have hclear : u.vf = 0x00#8 := hmiss' fun ⟨py, px, hset, hdrawn⟩ =>
      hnone ⟨py, px, by simpa [hpix, hdrawn] using hset, hset⟩
    exact absurd (hclear.symm.trans hvf) (by decide)
  · exact fun ⟨py, px, hwas, hset⟩ => hhit' ⟨py, px, hset, by simpa [hpix, hwas] using hset⟩

end Sys2Proof.Machine
end

section
/-! SUPPORT. The two key-state skips, which are no-ops (45_key_skip.md R210, R211; decision D32; O51, O52). -/

namespace Sys2Proof.Machine

/-- The step to the next instruction writes `PC` alone. -/
theorem State.frame_advance (s : State) : Frame [] [] [] s s.advance :=
  .of_kept rfl rfl fun f _ => by cases f <;> rfl

/-- Settles O51: the encoding is that of `encode`, and the instruction is `State.advance`. -/
theorem sknpIsNoOp : Obligations.SknpIsNoOp := by
  unfold Obligations.SknpIsNoOp
  intro x s
  exact ⟨decode_encode (.sknp x), s.advance, rfl, s.advance_pc, s.frame_advance⟩

/-- Settles O52: the instruction is `State.advance`. -/
theorem skpIsNoOp : Obligations.SkpIsNoOp := by
  unfold Obligations.SkpIsNoOp
  intro _ s
  exact ⟨s.advance, rfl, State.advance_pc_eq_nextPc rfl, s.frame_advance⟩

end Sys2Proof.Machine
end

section
/-! SUPPORT. Every step goes on, a halt is final, ticks are not lost and a render is consumed (60_exceptions.md R220 to R224,
R229 to R231, R235; O9 to O11, O43, O44, O50). -/

namespace Sys2Proof.Machine

/-! ### The moves -/

section
variable {s t : State}

theorem step_render (hload : s.loadError = false) (hmove : s.nextMove = .render) :
    step s = .next { s.popMove with redraw := false } := by
  simp [step, moveStep, hmove, hload, State.consumeRender]

theorem step_reset {rom : Option (List Byte)} (hmove : s.nextMove = .reset rom) :
    step s = .next (s.popMove.reboot rom) := by
  simp [step, moveStep, hmove]

theorem engineStep_of_not_run (h : s.status ≠ .run) : engineStep s = .next s := by
  unfold engineStep
  split
  · next hrun => exact absurd hrun h
  all_goals rfl

/-- The engine's move ends in a next state: no instruction faults or is refused (R224), an `INVALID` word is a halt (R221), and
a waiting or halted engine is left as it is. -/
theorem engineStep_total (s : State) : ∃ t, engineStep s = .next t := by
  by_cases hrun : s.status = .run
  · cases hdec : decode s.fetchWord with
    | named i =>
      obtain ⟨t, hexec, -⟩ := programCounterTable i s
      exact ⟨t, (engineStep_of_named hrun hdec).trans hexec⟩
    | invalid why => exact ⟨_, engineStep_of_invalid hrun hdec⟩
  · exact ⟨s, engineStep_of_not_run hrun⟩

/-- Only the engine moves where nothing is scheduled. -/
theorem State.nextMove_mem_schedule (h : s.nextMove ≠ .engine) : s.nextMove ∈ s.schedule := by
  cases hsched : s.schedule with
  | nil => exact absurd (by rw [State.nextMove, hsched]) h
  | cons m rest => exact State.nextMove_of_cons hsched ▸ List.mem_cons_self

theorem steps_succ_next {n : Nat} (h : steps (n + 1) s = .next t) : ∃ m, step s = .next m ∧ steps n m = .next t := by
  rw [steps] at h
  split at h
  · next m hm => exact ⟨m, hm, h⟩
  all_goals cases h

/-! ### A move that writes the timers, `redraw` and the schedule alone -/

theorem State.frame_withTimers (s : State) (d u : Timer) (r : Bool) (ms : List Move) :
    Frame [] [.dt, .st, .redraw, .schedule] [] s { s.withTimers d u r with schedule := ms } := by
  refine .of_kept rfl rfl fun f hf => ?_
  cases f with
  | dt | st | redraw | schedule => simp at hf
  | _ => rfl

/-- A halted engine neither runs nor waits (R223). -/
theorem Status.ne_of_halted {a : Status} (h : a.halted = true) : a ≠ .run ∧ a ≠ .waitKey := by
  cases a with
  | run | waitKey => simp [Status.halted] at h
  | haltDecode | haltSelfJump => exact ⟨by decide, by decide⟩

/-- All that a move but a reset does to a halted engine (R223, R231). -/
theorem step_of_halted (hhalt : s.status.halted = true) (hmove : ∀ rom, s.nextMove ≠ .reset rom)
    (h : step s = .next t) : ∃ d u r, t = { s.withTimers d u r with schedule := s.schedule.tail } := by
  obtain ⟨hrun, hwait⟩ := Status.ne_of_halted hhalt
  obtain ⟨rom, hreset, -⟩ | ⟨-, ⟨-, he⟩ | ⟨-, rfl⟩ | ⟨k, -, rfl⟩ | ⟨-, rfl⟩⟩ := step_next h
  · exact absurd hreset (hmove rom)
  · rw [engineStep_of_not_run (s := s.popMove) hrun] at he
    exact ⟨s.dt, s.st, s.redraw, (Host.Outcome.next.inj he).symm⟩
  · exact ⟨_, _, _, rfl⟩
  · exact ⟨s.dt, s.st, s.redraw, State.offerKey_of_not_waitKey (s := s.popMove) hwait⟩
  · exact ⟨s.dt, s.st, false, rfl⟩

/-- A run without a reset does to a halted engine what its moves do. -/
theorem steps_of_halted {n : Nat} (hhalt : s.status.halted = true) (hsched : ∀ rom, Move.reset rom ∉ s.schedule)
    (h : steps n s = .next t) : ∃ d u r ms, t = { s.withTimers d u r with schedule := ms } := by
  induction n generalizing s with
  | zero => exact ⟨s.dt, s.st, s.redraw, s.schedule, (Host.Outcome.next.inj h).symm⟩
  | succ n ih =>
    obtain ⟨m, hstep, hrest⟩ := steps_succ_next h
    have hmove : ∀ rom, s.nextMove ≠ .reset rom := fun rom hr =>
      hsched rom (hr ▸ State.nextMove_mem_schedule (by simp [hr]))
    have htail : ∀ rom, Move.reset rom ∉ s.schedule.tail := fun rom hr => hsched rom (List.mem_of_mem_tail hr)
    obtain ⟨d, u, r, rfl⟩ := step_of_halted hhalt hmove hstep
    exact ih (s := { s.withTimers d u r with schedule := s.schedule.tail }) hhalt htail hrest

end

/-! ### The obligations -/

/-- Settles O9, move by move. -/
theorem stepGoesOn : Obligations.StepGoesOn := by
  unfold Obligations.StepGoesOn
  intro s hload
  cases hmove : s.nextMove with
  | engine =>
    rw [step_engine hload hmove]
    exact engineStep_total _
  | tick => exact ⟨_, step_tick hload hmove⟩
  | key k => exact ⟨_, step_key hload hmove⟩
  | render => exact ⟨_, step_render hload hmove⟩
  | reset rom => exact ⟨_, step_reset hmove⟩

/-- Settles O10: the move writes the timers, `redraw` and the schedule at most. -/
theorem haltIsFinal : Obligations.HaltIsFinal := by
  unfold Obligations.HaltIsFinal
  intro s t hhalt hmove h
  obtain ⟨d, u, r, rfl⟩ := step_of_halted hhalt hmove h
  exact ⟨rfl, rfl, rfl, s.frame_withTimers d u r _⟩

/-- Settles O11, by induction on the number of steps in `steps_of_halted`. -/
theorem haltedRunStaysHalted : Obligations.HaltedRunStaysHalted := by
  unfold Obligations.HaltedRunStaysHalted
  intro n s t hhalt hsched h
  obtain ⟨d, u, r, ms, rfl⟩ := steps_of_halted hhalt hsched h
  exact ⟨rfl, rfl, rfl, rfl, rfl, rfl, rfl⟩

/-- Settles O44: the run of `n` ticks with nothing after it. -/
theorem ticksAreNotLost : Obligations.TicksAreNotLost := by
  unfold Obligations.TicksAreNotLost
  intro n rest s hload hsched
  obtain ⟨d, u, r, hrun, hd, hu⟩ := steps_ticks hload hsched 0
  exact ⟨_, hrun, hd, hu, rfl, rfl, rfl⟩

/-- Settles O43: `State.tick` takes each timer one down, on the state without its move. -/
theorem tickCountsDown : Obligations.TickCountsDown := by
  unfold Obligations.TickCountsDown
  intro s hload hmove
  exact ⟨_, step_tick hload hmove, countDown_toNat s.dt, countDown_toNat s.st, rfl, rfl, s.frame_withTimers _ _ _ _⟩

/-- Settles O50: the render writes `redraw` alone, on the state without its move. -/
theorem renderConsumes : Obligations.RenderConsumes := by
  unfold Obligations.RenderConsumes
  intro s hload hmove
  refine ⟨_, step_render hload hmove, rfl, rfl, rfl, .of_kept rfl rfl fun f hf => ?_⟩
  cases f with
  | redraw | schedule => simp at hf
  | _ => rfl

end Sys2Proof.Machine
end

section
/-! SUPPORT. The state after the reset sequence, when the load fails, and what a load error stops (70_reset_and_hazards.md
R260 to R264; O12, O14, O15, O58, O60). -/

namespace Sys2Proof.Machine

/-! ### The reset values -/

theorem State.getV_reset (r : Nibble) : State.reset.getV r = 0x00#8 :=
  Vector.getElem_replicate _

/-! ### The load error -/

section
variable {s : State}

/-- Step 4 of R260 asserts the load error exactly for an unreadable image or one too long (R264). -/
theorem State.loadRom_loadError_iff (rom : Option (List Byte)) (hclear : s.loadError = false) :
    (s.loadRom rom).loadError = true ↔ ∀ image, rom = some image → memSize - s.cfg.loadAddr.toNat < image.length := by
  cases rom with
  | none => simp [State.loadRom]
  | some image =>
    by_cases hfit : image.length ≤ memSize - s.cfg.loadAddr.toNat
    · simp [State.loadRom, hfit, hclear]
    · simp [State.loadRom, hfit, Nat.lt_of_not_le hfit]

theorem State.boot_loadError_iff (c : Config) (rom : Option (List Byte)) : (State.boot c rom).loadError = true ↔
    ∀ image, rom = some image → memSize - c.loadAddr.toNat < image.length := by
  have hcfg : (State.cleared c).loadFont.cfg = c := State.writeBytes_cfg _ _ _
  have hclear : (State.cleared c).loadFont.loadError = false := State.writeBytes_loadError _ _ _
  have hload := State.loadRom_loadError_iff rom hclear
  rwa [hcfg] at hload

/-- After a load error no move but a reset is taken (R264). -/
theorem step_of_loadError (hload : s.loadError = true) (hmove : ∀ rom, s.nextMove ≠ .reset rom) :
    step s = .fault .loadError := by
  cases hm : s.nextMove with
  | reset rom => exact absurd hm (hmove rom)
  | engine | tick | key _ | render => simp [step, moveStep, hm, hload]

/-- A move that ends in a next state is no fault. -/
theorem step_ne_fault_of_next {t : State} (h : step s = .next t) (f : Fault) : step s ≠ .fault f := by
  simp [h]

end

/-! ### The obligations -/

/-- Settles O15: the reset sequence writes memory in its canonical form, and leaves the engine running with a zero halt
record. -/
theorem bootHasInvariant : Obligations.BootHasInvariant := by
  unfold Obligations.BootHasInvariant
  exact State.boot_inv

/-- Settles O12: a reset goes on whatever the load error is, and without a load error every move does. -/
theorem loadErrorNeverStarts : Obligations.LoadErrorNeverStarts := by
  unfold Obligations.LoadErrorNeverStarts
  intro s f
  constructor
  · intro hfault
    have hmove : ∀ rom, s.nextMove ≠ .reset rom := fun _ hreset =>
      step_ne_fault_of_next (step_reset hreset) f hfault
    have hload : s.loadError = true := by
      by_contra hclear
      obtain ⟨t, hnext⟩ := stepGoesOn s (Bool.eq_false_of_not_eq_true hclear)
      exact step_ne_fault_of_next hnext f hfault
    exact ⟨hload, hmove, Host.Outcome.fault.inj (hfault.symm.trans (step_of_loadError hload hmove))⟩
  · rintro ⟨hload, hmove, rfl⟩
    exact step_of_loadError hload hmove

/-- Settles O14: no byte is listed, and the engine runs with a zero halt record. -/
theorem resetHasInvariant : Obligations.ResetHasInvariant := by
  unfold Obligations.ResetHasInvariant
  exact ⟨Memory.wf_nil, (State.statusOk_run rfl).2 ⟨rfl, rfl⟩⟩

/-- Settles O58: the loads of the font and the image leave every register at the value of the first two steps of R260. -/
theorem resetRegisters : Obligations.ResetRegisters := by
  unfold Obligations.ResetRegisters
  intro c rom
  rw [State.boot_only]
  exact ⟨State.getV_reset, rfl, rfl, rfl, rfl, rfl, rfl, rfl, rfl, rfl, rfl, Framebuffer.pixel_blank⟩

/-- Settles O60: the two rules of the load error, and the move of a reset. -/
theorem resetMoveBoots : Obligations.ResetMoveBoots := by
  unfold Obligations.ResetMoveBoots
  exact ⟨State.boot_loadError_iff, fun _ _ hmove => ⟨_, step_reset hmove, rfl⟩⟩

end Sys2Proof.Machine
end
